-- ==== Sys2Proof/Word.lean ====
section
/-! DEFINITION. The plainest values the block handles (00_scope.md R8, R9, R11): bytes, pin levels, pixels. -/

namespace Sys2Proof

/-- A bus byte or a DEVBUF byte: bit 7 is the most significant (R8, R9). -/
abbrev Byte := BitVec 8

/-- A pin level (R11). -/
inductive Level where
  | high
  | low
  deriving DecidableEq, Repr, Inhabited

/-- A logical pixel (R11). -/
inductive Pixel where
  | black
  | white
  deriving DecidableEq, Repr, Inhabited

/-- The three output pins of the block (10_state.md R26, R28). BUSY is an input and no output pin. -/
inductive OutPin where
  | reset
  | dc
  | power
  deriving DecidableEq, Repr, Inhabited

/-- One level for each output latch (10_state.md R26). -/
structure Latches where
  reset : Level
  dc    : Level
  power : Level
  deriving DecidableEq, Repr, Inhabited

/-- `fill(b, n)`: `n` bytes each equal to `b` (00_scope.md R9). -/
abbrev fill (b : Byte) (n : Nat) : List Byte := List.replicate n b

end Sys2Proof
end

