-- ==== Sys2Proof/Config.lean ====
section
/-! DEFINITION. What is fixed for one block: the constants and the parameters of 00_scope.md R7, and the
free values the platform supplies where State queues no answer. -/

namespace Sys2Proof

/-- WIDTH (R7). -/
abbrev Config.width : Nat := 128
/-- HEIGHT (R7). -/
abbrev Config.height : Nat := 80
/-- BUF_LEN, `WIDTH*HEIGHT/8` (R7). -/
abbrev Config.bufLen : Nat := 1280
/-- SPI_HZ (R7, 10_state.md R29). No rule of the block depends on it. -/
def Config.spiHz : Nat := 4000000
/-- SPI_MODE (R7, 10_state.md R29). No rule of the block depends on it. -/
def Config.spiMode : Nat := 0

/-- One waveform payload: 42 bytes (44_panel_commands.md R204). -/
abbrev Lut := Vector Byte 42

/-- An ordered list of (command byte, parameter bytes) (44_panel_commands.md R205, R206). -/
abbrev Script := List (Byte × List Byte)

/-- REF_MODE (R7): the content of the reference buffer of DISPLAY (42_controller.md R145). -/
inductive RefMode where
  /-- `Fill(0x00)`, the default. -/
  | fill
  /-- The bitwise complement of the new image. -/
  | complement
  deriving DecidableEq, Repr, Inhabited

/-- PIN_MAP (R7): physical pin numbers. No rule of the block depends on them. -/
structure PinMap where
  reset : Nat
  dc    : Nat
  busy  : Nat
  power : Nat
  deriving DecidableEq, Repr, Inhabited

/-- The parameters of R7 that are fixed for a run (10_state.md R33, R34). INIT_PIN_LEVELS is a draw per
session and stands with the acquisition answer (`AcquireAnswer`). -/
structure Params where
  initSequence     : Script
  lutFullW         : Lut
  lutFullB         : Lut
  /-- Never written by any request (44_panel_commands.md R204). -/
  lutPartW         : Lut
  /-- Never written by any request (44_panel_commands.md R204). -/
  lutPartB         : Lut
  shutdownSequence : Script
  refMode          : RefMode
  clearFill1       : Byte
  clearFill2       : Byte
  pinMap           : PinMap
  deriving DecidableEq, Repr, Inhabited

/-- The vendor constants the spec leaves OPEN (44_panel_commands.md R192 to R206; 00_scope.md R7). -/
structure VendorBytes where
  p01 : List Byte
  p06 : List Byte
  p2A : List Byte
  p30 : List Byte
  p50 : List Byte
  p60 : List Byte
  p61 : List Byte
  p82 : List Byte
  pE3 : List Byte
  p02 : List Byte
  p07 : List Byte
  lutFullW : Lut
  lutFullB : Lut
  lutPartW : Lut
  lutPartB : Lut
  pinMap   : PinMap
  deriving DecidableEq, Repr, Inhabited

/-- The OPEN vendor constants: no value is known of them (44_panel_commands.md R207). Log 1. -/
opaque Config.vendor : VendorBytes

/-- The platform's answer to `SpiWrite(bytes)` (41_bus_primitives.md R123). -/
inductive SpiAnswer where
  /-- `Ok(len(bytes))`, whatever the length of the write. -/
  | all
  /-- `Ok(n)`: a success exactly when `n = len(bytes)`. -/
  | count (n : Nat)
  /-- `Err`. -/
  | err
  deriving DecidableEq, Repr, Inhabited

/-- The platform's one answer to the acquisition of NEW (42_controller.md R141); a grant carries the levels the
output latches then hold, INIT_PIN_LEVELS, a draw per session. -/
inductive AcquireAnswer where
  | refused
  | granted (levels : Latches)
  deriving DecidableEq, Repr, Inhabited

/-! The free values (log 2): the platform's answers where State queues none, indexed by State's draw counter. -/

/-- Acquisition answers (I10, I17 of 93_implementation_defined.md). -/
opaque Config.freeAcquire : Nat → AcquireAnswer
/-- SPI write answers (I17). -/
opaque Config.freeSpi : Nat → SpiAnswer
/-- BUSY levels (I9). -/
opaque Config.freeBusy : Nat → Level
/-- Clock draws: the excess over the least value R125 allows (I13; log 13). -/
opaque Config.freeClock : Nat → Nat
/-- How many bytes a failed write delivered (I1; 20_memory.md R57; log 23). -/
opaque Config.freeDelivered : Nat → Nat

end Sys2Proof
end

