-- ==== Sys2Proof/Syntax.lean ====
section
/-! DEFINITION. What the block decodes and sends: host requests with their operands, bus commands with their
data, and their encoded forms (30_encoding.md). One constructor of `Instr` for each row of the opcode table. -/

namespace Sys2Proof

/-- The image operand IMG (30_encoding.md R70): declared width and height and the pixels, one bit each, the pixel
`(x, y)` at bit `y*w + x` of `blacks`, a set bit BLACK. The block sees it only through `pixel`; the layout is the
model's (20_memory.md R50; log 14). -/
structure Image where
  w : BitVec 16
  h : BitVec 16
  blacks : Nat
  deriving DecidableEq, Repr, Inhabited

/-- An instruction: one host request of 30_encoding.md R71 with the operands it reads, or one bus command of R80
with its data bytes. -/
inductive Instr where
  /-- NEW, 42_controller.md R141. -/
  | new
  /-- ON, R142. -/
  | on
  /-- DISPLAY, R145. -/
  | display (img : Image)
  /-- CLEAR, R147. -/
  | clear
  /-- RELEASE, R148. -/
  | release
  /-- AWAIT_BUSY, 43_busy_poller.md R174. -/
  | awaitBusy
  /-- AWAIT_BUSY_T, R175. -/
  | awaitBusyT (tmo : BitVec 32)
  /-- PACK, 40_bitpacker.md R100. -/
  | pack (img : Image)
  /-- 0x71, 44_panel_commands.md R186. -/
  | busyQuery
  /-- 0x12, R187. -/
  | displayRefresh
  /-- 0x10, R188. -/
  | writeBuffer1 (data : List Byte)
  /-- 0x13, R189. -/
  | writeBuffer2 (data : List Byte)
  /-- 0x23, R190. -/
  | lutW (data : List Byte)
  /-- 0x24, R191. -/
  | lutB (data : List Byte)
  /-- 0x01, R192. -/
  | powerSetting (data : List Byte)
  /-- 0x06, R193. -/
  | chargePump (data : List Byte)
  /-- 0x2A, R194. -/
  | lutOption (data : List Byte)
  /-- 0x30, R195. -/
  | clockFrequency (data : List Byte)
  /-- 0x50, R196. -/
  | vcomInterval (data : List Byte)
  /-- 0x60, R197. -/
  | gateSourceTiming (data : List Byte)
  /-- 0x61, R198. -/
  | resolution (data : List Byte)
  /-- 0x82, R199. -/
  | vcomDc (data : List Byte)
  /-- 0xE3, R200. -/
  | powerSaving (data : List Byte)
  /-- 0x04, R201. -/
  | powerOn
  /-- 0x02, R202. -/
  | powerOff (data : List Byte)
  /-- 0x07, R203. -/
  | deepSleep (data : List Byte)
  deriving DecidableEq, Repr

/-- What the host puts on the request port: the 40-bit word and the image side port (30_encoding.md R70). -/
structure HostRequest where
  word : BitVec 40
  img  : Image
  deriving DecidableEq, Repr, Inhabited

/-- The encoded form of an instruction: a host request, or the code byte and the data of a bus command
(30_encoding.md R70, R76 to R78). -/
inductive Encoded where
  | request (r : HostRequest)
  | command (code : Byte) (data : List Byte)
  deriving DecidableEq, Repr

/-- One bus frame: the DC level in force and the bytes of one SPI write (30_encoding.md R76). -/
abbrev Frame := Level × List Byte

end Sys2Proof
end

