-- ==== Sys2Proof/WellFormed.lean ====
section
/-! DEFINITION. Which instruction terms the encoding can carry: the data lengths the spec fixes
(30_encoding.md R80, 44_panel_commands.md R188 to R191). -/

namespace Sys2Proof

/-- The check, as a Bool. Every host request is well formed: an image of any declared size is a legal operand
(30_encoding.md R74), refused at run time. -/
def Instr.wf : Instr → Bool
  | .new => true
  | .on => true
  | .display _ => true
  | .clear => true
  | .release => true
  | .awaitBusy => true
  | .awaitBusyT _ => true
  | .pack _ => true
  | .busyQuery => true
  | .displayRefresh => true
  | .writeBuffer1 d => d.length == 1280
  | .writeBuffer2 d => d.length == 1280
  | .lutW d => d.length == 42
  | .lutB d => d.length == 42
  | .powerSetting _ => true
  | .chargePump _ => true
  | .lutOption _ => true
  | .clockFrequency _ => true
  | .vcomInterval _ => true
  | .gateSourceTiming _ => true
  | .resolution _ => true
  | .vcomDc _ => true
  | .powerSaving _ => true
  | .powerOn => true
  | .powerOff _ => true
  | .deepSleep _ => true

/-- `i` is well formed. -/
abbrev Instr.WellFormed (i : Instr) : Prop := i.wf = true

end Sys2Proof
end

