-- ==== Sys2Proof/Decode.lean ====
section
/-! DEFINITION. The decoders (host request, bus command, bus stream), the encoder, and the two fixed names over the
opcode table's own numbering. -/

namespace Sys2Proof

/-! ## Host requests (30_encoding.md R70 to R74) -/

/-- OP, bits [7:0] of the request word. -/
def opField (w : BitVec 40) : BitVec 8 := w.extractLsb' 0 8

/-- TMO, bits [39:8] of the request word. -/
def tmoField (w : BitVec 40) : BitVec 32 := w.extractLsb' 8 32

/-- A request word from its two fields. -/
def requestWord (tmo : BitVec 32) (op : BitVec 8) : BitVec 40 := tmo ++ op

/-- The host request a word and its image operand stand for; none for a reserved OP (R71, R72). TMO is read by
AWAIT_BUSY_T alone and IMG by DISPLAY and PACK alone. -/
def decodeRequest (r : HostRequest) : Option Instr :=
  match (opField r.word).toNat with
  | 0x01 => some .new
  | 0x02 => some .on
  | 0x03 => some (.display r.img)
  | 0x04 => some .clear
  | 0x05 => some .release
  | 0x06 => some .awaitBusy
  | 0x07 => some (.awaitBusyT (tmoField r.word))
  | 0x08 => some (.pack r.img)
  | _ => none

/-! ## Bus commands (30_encoding.md R76 to R80) -/

/-- The bus command a code byte and its data bytes stand for; none for a code outside R80, or for a data length
that R80 does not give the code. -/
def decodeCommand (code : Byte) (data : List Byte) : Option Instr :=
  match code.toNat with
  | 0x71 => if data.isEmpty then some .busyQuery else none
  | 0x12 => if data.isEmpty then some .displayRefresh else none
  | 0x10 => if data.length == 1280 then some (.writeBuffer1 data) else none
  | 0x13 => if data.length == 1280 then some (.writeBuffer2 data) else none
  | 0x23 => if data.length == 42 then some (.lutW data) else none
  | 0x24 => if data.length == 42 then some (.lutB data) else none
  | 0x01 => some (.powerSetting data)
  | 0x06 => some (.chargePump data)
  | 0x2A => some (.lutOption data)
  | 0x30 => some (.clockFrequency data)
  | 0x50 => some (.vcomInterval data)
  | 0x60 => some (.gateSourceTiming data)
  | 0x61 => some (.resolution data)
  | 0x82 => some (.vcomDc data)
  | 0xE3 => some (.powerSaving data)
  | 0x04 => if data.isEmpty then some .powerOn else none
  | 0x02 => some (.powerOff data)
  | 0x07 => some (.deepSleep data)
  | _ => none

/-- The decoder of either encoded form. -/
def decode : Encoded → Option Instr
  | .request r => decodeRequest r
  | .command code data => decodeCommand code data

/-! ## The bus stream (30_encoding.md R79) -/

/-- The data bytes at the head of a stream: its DC-high bytes up to the next DC-low byte. -/
def leadingData : List (Level × Byte) → List Byte
  | (.high, b) :: rest => b :: leadingData rest
  | (.low, _) :: _ => []
  | [] => []

/-- The commands of a byte stream with DC levels: each DC-low byte starts a command, the DC-high bytes after it are
its data. DC-high bytes before the first command belong to none. -/
def splitStream : List (Level × Byte) → List (Byte × List Byte)
  | (.low, c) :: rest => (c, leadingData rest) :: splitStream rest
  | (.high, _) :: rest => splitStream rest
  | [] => []

/-- The bytes of a frame, each with the frame's DC level. -/
def frameBytes (f : Frame) : List (Level × Byte) := f.2.map (fun b => (f.1, b))

/-! ## The encoder, from the tables of R71 and R80 -/

/-- The image operand of a request that reads none. -/
def noImage : Image := { w := 0, h := 0, blacks := 0 }

/-- The encoded form of an instruction. A field the instruction does not read is written as zero. -/
def encode : Instr → Encoded
  | .new => .request { word := requestWord 0 0x01, img := noImage }
  | .on => .request { word := requestWord 0 0x02, img := noImage }
  | .display img => .request { word := requestWord 0 0x03, img := img }
  | .clear => .request { word := requestWord 0 0x04, img := noImage }
  | .release => .request { word := requestWord 0 0x05, img := noImage }
  | .awaitBusy => .request { word := requestWord 0 0x06, img := noImage }
  | .awaitBusyT tmo => .request { word := requestWord tmo 0x07, img := noImage }
  | .pack img => .request { word := requestWord 0 0x08, img := img }
  | .busyQuery => .command 0x71 []
  | .displayRefresh => .command 0x12 []
  | .writeBuffer1 d => .command 0x10 d
  | .writeBuffer2 d => .command 0x13 d
  | .lutW d => .command 0x23 d
  | .lutB d => .command 0x24 d
  | .powerSetting d => .command 0x01 d
  | .chargePump d => .command 0x06 d
  | .lutOption d => .command 0x2A d
  | .clockFrequency d => .command 0x30 d
  | .vcomInterval d => .command 0x50 d
  | .gateSourceTiming d => .command 0x60 d
  | .resolution d => .command 0x61 d
  | .vcomDc d => .command 0x82 d
  | .powerSaving d => .command 0xE3 d
  | .powerOn => .command 0x04 []
  | .powerOff d => .command 0x02 d
  | .deepSleep d => .command 0x07 d

/-- The frames a bus command is sent as (30_encoding.md R77, R78): a command frame of one byte, then one data frame
unless the data is empty. -/
def commandFrames (code : Byte) (data : List Byte) : List Frame :=
  (.low, [code]) :: (if data.isEmpty then [] else [(.high, data)])

/-! ## The opcode table's numbering (log 6) -/

/-- The image operand that goes with a table word: a 128 × 80 image, all WHITE (log 7). -/
def tableImage : Image := { w := 128, h := 80, blacks := 0 }

/-- The data bytes that go with a table word of one byte: zeros, as many as R80 fixes for the code. -/
def tableData (code : Byte) : List Byte :=
  match code.toNat with
  | 0x10 => fill 0 1280
  | 0x13 => fill 0 1280
  | 0x23 => fill 0 42
  | 0x24 => fill 0 42
  | _ => []

/-- The encoded form of a table word of `nbits` bits: a word of one byte that is a bus command's code is that
command; any other word is a host request. -/
def tableEncoded (nbits w : Nat) : Encoded :=
  let code : Byte := BitVec.ofNat 8 w
  if nbits ≤ 8 ∧ (decodeCommand code (tableData code)).isSome then .command code (tableData code)
  else .request { word := BitVec.ofNat 40 w, img := tableImage }

/-- The instruction the decoders read from a table word. -/
def decodeTableWord (nbits w : Nat) : Option Instr := decode (tableEncoded nbits w)

end Sys2Proof
end

