-- ==== Sys2Proof/Machine/Defaults.lean ====
section
/-! DEFINITION. The default values of the parameters (00_scope.md R7, 44_panel_commands.md R205, R206). -/

namespace Sys2Proof

/-- The default INIT_SEQUENCE (44_panel_commands.md R205). -/
def Config.defaultInitSequence (v : VendorBytes) : Script :=
  [(0x01, v.p01), (0x06, v.p06), (0x2A, v.p2A), (0x30, v.p30), (0x50, v.p50),
   (0x60, v.p60), (0x61, v.p61), (0x82, v.p82), (0xE3, v.pE3)]

/-- The default SHUTDOWN_SEQUENCE (44_panel_commands.md R206). -/
def Config.defaultShutdownSequence (v : VendorBytes) : Script :=
  [(0x02, v.p02), (0x07, v.p07)]

/-- The parameters at their defaults (R7, R205, R206) over given vendor constants. -/
def Config.defaultParams (v : VendorBytes) : Params where
  initSequence     := Config.defaultInitSequence v
  lutFullW         := v.lutFullW
  lutFullB         := v.lutFullB
  lutPartW         := v.lutPartW
  lutPartB         := v.lutPartB
  shutdownSequence := Config.defaultShutdownSequence v
  refMode          := .fill
  clearFill1       := 0x00
  clearFill2       := 0xFF
  pinMap           := v.pinMap

end Sys2Proof
end

