-- ==== Sys2Proof/Machine/State.lean ====
section
/-! DEFINITION. The block's state (10_state.md), the port events (41_bus_primitives.md R120), the platform's pending
answers, and the state at power-up (10_state.md R37). -/

namespace Sys2Proof.Machine

/-- STATE (10_state.md R21); code 7 is never held and has no name. -/
inductive PanelState where
  | absent
  | off
  | poweringOn
  | initializing
  | idle
  | busy
  | shuttingDown
  deriving DecidableEq, Repr, Inhabited

/-- A status code (60_exceptions.md R220). -/
inductive Status where
  | ok
  | acquisitionFailure
  | transportFault
  | busyTimeout
  | sizeMismatch
  | invalidState
  | invalidRequest
  | faulted
  deriving DecidableEq, Repr, Inhabited

/-- FAULT (10_state.md R24): the sticky bit and the code of the fault that set it (`ok` is code 0, no fault). -/
structure FaultReg where
  f     : Bool
  cause : Status
  deriving DecidableEq, Repr, Inhabited

/-- Which host request (30_encoding.md R71), without its operands. -/
inductive RequestKind where
  | new
  | on
  | display
  | clear
  | release
  | awaitBusy
  | awaitBusyT
  | pack
  deriving DecidableEq, Repr, Inhabited

/-- How a write's answer stands in a trace: a short count is written as an error (30_encoding.md R84, 90_conflicts.md
C10). A failed write keeps how many of its bytes the panel took in, which neither the block nor the host can see
(20_memory.md R57; log 23). -/
inductive WriteResult where
  | ok
  | err (delivered : Nat)
  deriving DecidableEq, Repr, Inhabited

/-- A port event with the platform's answer (41_bus_primitives.md R120 to R125). -/
inductive PortEvent where
  | setPin (p : OutPin) (l : Level)
  | spiWrite (bytes : List Byte) (r : WriteResult)
  | readBusy (l : Level)
  | sleep (ms : Nat)
  | now (t : Nat)
  deriving DecidableEq, Repr

/-- One line of a request's pseudocode (42_controller.md, 43_busy_poller.md), the unit of the sequencer position. -/
inductive SeqOp where
  /-- `STATE <- p`. -/
  | enter (p : PanelState)
  /-- `SetPin(p, l)`. -/
  | setPin (p : OutPin) (l : Level)
  /-- `Sleep(ms)`. -/
  | sleep (ms : Nat)
  /-- `SendCmdData(c, p)`, 41_bus_primitives.md R128. -/
  | send (code : Byte) (data : List Byte)
  /-- `AwaitBusyUnbounded`, 43_busy_poller.md R172. -/
  | awaitBusy
  /-- `AwaitBusyTimed(d)` from its first poll, R173. -/
  | awaitTimed (d : Nat)
  /-- The loop of `AwaitBusyTimed` from its poll, R173. -/
  | pollTimed
  /-- `STATE <- p; STATUS <- OK`, the end of a request. -/
  | finish (p : PanelState)
  deriving DecidableEq, Repr

/-- The sequencer position while a request runs (10_state.md R32): which request, and what of its pseudocode is left. -/
structure Position where
  request : RequestKind
  rest    : List SeqOp
  deriving DecidableEq, Repr

/-- The platform as the block meets it (00_scope.md R6): the answers it has ready, in the order it gives them. Where
a queue is empty the answer is a free value of Config, drawn at `draws` (log 2). -/
structure Platform where
  acquire : List AcquireAnswer
  spi     : List SpiAnswer
  busy    : List Level
  /-- Clock draws: each is the excess over the least value 41_bus_primitives.md R125 allows (log 13). -/
  clock   : List Nat
  /-- How many bytes each failed write delivers (20_memory.md R57); a number above the write's length means all of them. -/
  delivered : List Nat
  /-- How many free values have been drawn: the model's own counter. -/
  draws   : Nat
  /-- `t_prev` of R125: the value of the previous `Now()` in the same request. -/
  lastNow : Option Nat
  /-- `s` of R125: the sum of the `Sleep` arguments since that `Now()`. -/
  slept   : Nat
  deriving DecidableEq, Repr, Inhabited

/-- The contents of DEVBUF (20_memory.md R52) as index and byte pairs: indices strictly rising and below BUF_LEN, no
entry equal to what an unlisted index reads as. -/
abbrev Memory := List Host.Cell

/-- What an unlisted DEVBUF byte reads as: 0xFF, all white (log 8). -/
abbrev Memory.unlisted : Byte := 0xFF

/-- Indices strictly rise. -/
def Memory.rising : Memory → Bool
  | [] => true
  | [_] => true
  | a :: b :: rest => decide (a.1 < b.1) && Memory.rising (b :: rest)

/-- The canonical form. -/
def Memory.wf (m : Memory) : Bool :=
  m.rising && m.all (fun c => decide (c.1 < Config.bufLen) && decide (c.2 ≠ Memory.unlisted))

/-- Everything the spec gives the machine, with the model's own record of the host port, the platform and the trace
(INVENTORY.md, State). -/
structure State where
  /-- STATE, 10_state.md R21. -/
  panel     : PanelState
  /-- FAULT, R24. -/
  fault     : FaultReg
  /-- STATUS, R25. -/
  status    : Status
  /-- RESET_L, DC_L, POWER_L, R26. -/
  latches   : Latches
  /-- DEVBUF, R30. -/
  devbuf    : Memory
  /-- DEADLINE, R31; kept where R31 leaves it unspecified (DESIGN CHOICE, log 9). -/
  deadline  : Nat
  /-- The sequencer position, R32; none between requests. -/
  seq       : Option Position
  /-- The host port: requests offered and not yet accepted, the first to be accepted first (30_encoding.md R70; log 4). -/
  requests  : List HostRequest
  /-- The platform's pending answers. -/
  platform  : Platform
  /-- The port events so far, oldest first (41_bus_primitives.md R120). -/
  trace     : List PortEvent
  /-- The STATUS of every ended request, oldest first (41_bus_primitives.md R120). -/
  responses : List Status
  /-- The parameters, which nothing writes (10_state.md R33, R34; log 1). -/
  params    : Params
  deriving DecidableEq, Repr

/-- The platform with no answer queued. -/
def Platform.fresh : Platform :=
  { acquire := [], spi := [], busy := [], clock := [], delivered := [], draws := 0, lastNow := none, slept := 0 }

/-- Block power-up (10_state.md R37, 70_reset_and_hazards.md R250). The latches, DEVBUF and DEADLINE have no value in
the spec: logs 8, 9 and 10. -/
def State.reset : State where
  panel     := .absent
  fault     := { f := false, cause := .ok }
  status    := .ok
  latches   := { reset := .low, dc := .low, power := .low }
  devbuf    := []
  deadline  := 0
  seq       := none
  requests  := []
  platform  := Platform.fresh
  trace     := []
  responses := []
  params    := Config.defaultParams Config.vendor

/-- Why a step could stop with a fault: no reason exists. The block has no trap and no vector; every error of the spec
is a status it reports, and the block goes on (60_exceptions.md R229, R230; log 16). -/
inductive Fault where
  deriving DecidableEq, Repr

/-- Why a step could be refused. -/
inductive Refusal where
  /-- Raised by an arm of `exec` for an instruction without a meaning: none is left. Safe. -/
  | notModelled (mnemonic : String)
  deriving DecidableEq, Repr

/-- A write on the bus went through, or it failed; the state is the one after its events (41_bus_primitives.md R123). -/
inductive PortResult where
  | ok (s : State)
  | fault (s : State)
  deriving DecidableEq, Repr

/-- A busy query was answered with a level, or its write failed (43_busy_poller.md R171). -/
inductive PollResult where
  | answered (l : Level) (s : State)
  | fault (s : State)
  deriving DecidableEq, Repr

/-- One line of pseudocode went through, or the request waits at a busy poll that read Low with lines `again` to do
before the rest, or it raised an error. -/
inductive OpResult where
  | done (s : State)
  | wait (again : List SeqOp) (s : State)
  | raise (e : Status) (s : State)
  deriving DecidableEq, Repr

/-- What a step finds to do. -/
inductive Fetched where
  /-- No request runs and none is offered. -/
  | idle
  /-- A request with a reserved OP was taken. -/
  | reserved (s : State)
  /-- An instruction was taken. -/
  | instr (i : Instr) (s : State)
  /-- The running request goes on. -/
  | resume (k : RequestKind) (rest : List SeqOp)
  deriving DecidableEq, Repr

end Sys2Proof.Machine
end

