-- ==== Sys2Proof/Machine/Flags.lean ====
section
/-! DEFINITION. The flag-like registers (10_state.md R35): FAULT and STATUS, their codes and their writes. -/

namespace Sys2Proof.Machine

/-- The 8-bit code of a status (60_exceptions.md R220). -/
def Status.code : Status → BitVec 8
  | .ok => 0
  | .acquisitionFailure => 1
  | .transportFault => 2
  | .busyTimeout => 3
  | .sizeMismatch => 4
  | .invalidState => 5
  | .invalidRequest => 6
  | .faulted => 7

/-- The 3-bit code of STATE (10_state.md R21). -/
def PanelState.code : PanelState → BitVec 3
  | .absent => 0
  | .off => 1
  | .poweringOn => 2
  | .initializing => 3
  | .idle => 4
  | .busy => 5
  | .shuttingDown => 6

/-- `STATUS <- e`, with the response to the host that goes with it (10_state.md R25, 60_exceptions.md R229). -/
def writeStatus (e : Status) (s : State) : State :=
  { s with status := e, responses := s.responses ++ [e] }

/-- `FAULT.F <- 1; FAULT.CAUSE <- TRANSPORT_FAULT` (60_exceptions.md R222). -/
def setFault (s : State) : State := { s with fault := { f := true, cause := .transportFault } }

/-- `FAULT.F <- 0; FAULT.CAUSE <- 0` (42_controller.md R141). -/
def clearFault (s : State) : State := { s with fault := { f := false, cause := .ok } }

end Sys2Proof.Machine
end

