-- ==== Sys2Proof/Machine/Timing.lean ====
section
/-! DEFINITION. The times of 00_scope.md R7, in milliseconds. -/

namespace Sys2Proof.Machine

/-- T_RST_H1: first RESET-high time. -/
def tRstH1 : Nat := 200
/-- T_RST_L: RESET-low time. -/
def tRstL : Nat := 2
/-- T_RST_H2: second RESET-high time. -/
def tRstH2 : Nat := 200
/-- T_REFRESH: sleep after 0x12. -/
def tRefresh : Nat := 10
/-- T_POLL: sleep between busy polls. -/
def tPoll : Nat := 50
/-- T_OFF: sleep before POWER is driven low. -/
def tOff : Nat := 2000

end Sys2Proof.Machine
end

