-- ==== Sys2Proof/Machine/Operands.lean ====
section
/-! DEFINITION. The operands of requests (30_encoding.md R73, R74, 20_memory.md R50), the reads and writes of DEVBUF
(R52), and the payloads taken from it. -/

namespace Sys2Proof.Machine

/-- `Pixel(x, y)` for `x < w`, `y < h` (20_memory.md R50). -/
def pixel (img : Image) (x y : Nat) : Pixel :=
  if img.blacks.testBit (y * img.w.toNat + x) then .black else .white

/-- The size check: `(w, h) = (128, 80)` (30_encoding.md R74, 40_bitpacker.md R101). -/
def sizeMatches (img : Image) : Bool :=
  img.w.toNat == Config.width && img.h.toNat == Config.height

/-- TMO as a natural number of milliseconds, not scaled (30_encoding.md R73). -/
def timeoutMs (tmo : BitVec 32) : Nat := tmo.toNat

/-- The byte at an index in the listed cells. -/
def cellsRead (a : Nat) : Memory → Byte
  | [] => Memory.unlisted
  | (b, v) :: rest => if b = a then v else cellsRead a rest

/-- The cells with the byte `v` at index `a`, in canonical form. -/
def cellsWrite (a : Nat) (v : Byte) : Memory → Memory
  | [] => if v = Memory.unlisted then [] else [(a, v)]
  | (b, w) :: rest =>
    if b < a then (b, w) :: cellsWrite a v rest
    else if b = a then (if v = Memory.unlisted then rest else (a, v) :: rest)
    else if v = Memory.unlisted then (b, w) :: rest
    else (a, v) :: (b, w) :: rest

/-- `MemRead(i, 1)` (20_memory.md R52): an index is below BUF_LEN by its type, so no other is ever formed. -/
def memRead (m : Memory) (i : Fin Config.bufLen) : Byte := cellsRead i.val m

/-- `MemWrite(i, 1, v)` (20_memory.md R52). -/
def memWrite (m : Memory) (i : Fin Config.bufLen) (v : Byte) : Memory := cellsWrite i.val v m

/-- `[DEVBUF[0], …, DEVBUF[1279]]` (20_memory.md R54). -/
def bufferBytes (m : Memory) : List Byte := (List.finRange Config.bufLen).map (memRead m)

/-- PACK_OUT, equal to DEVBUF (30_encoding.md R75). -/
def packOut (s : State) : List Byte := bufferBytes s.devbuf

/-- `Ref(buf)` of DISPLAY (42_controller.md R145). -/
def refBuffer (mode : RefMode) (buf : List Byte) : List Byte :=
  match mode with
  | .fill => fill 0x00 Config.bufLen
  | .complement => buf.map (fun b => ~~~b)

/-- A payload as the serial bus shifts it: bytes in index order, each most significant bit first (20_memory.md R54,
R55; log 22). -/
def wireBits (bytes : List Byte) : List Bool :=
  bytes.flatMap (fun b => (List.range 8).map (fun j => b.getLsbD (7 - j)))

end Sys2Proof.Machine
end

