-- ==== Sys2Proof/Machine/Ops.lean ====
section
/-! DEFINITION. The port events (41_bus_primitives.md R121 to R125), the frames (R126 to R128), the busy query
(43_busy_poller.md R171), the prologue (42_controller.md R140), and raising an error as one operation
(60_exceptions.md R222, R223, R229). -/

namespace Sys2Proof.Machine

/-! ## The trace and the platform's answers -/

/-- Append an event to the trace (41_bus_primitives.md R120). -/
def emit (e : PortEvent) (s : State) : State := { s with trace := s.trace ++ [e] }

/-- The platform's answer to an acquisition (42_controller.md R141). -/
def nextAcquire (s : State) : AcquireAnswer × State :=
  match s.platform.acquire with
  | a :: more => (a, { s with platform := { s.platform with acquire := more } })
  | [] => (Config.freeAcquire s.platform.draws,
           { s with platform := { s.platform with draws := s.platform.draws + 1 } })

/-- The platform's answer to an SPI write (41_bus_primitives.md R123). -/
def nextSpi (s : State) : SpiAnswer × State :=
  match s.platform.spi with
  | a :: more => (a, { s with platform := { s.platform with spi := more } })
  | [] => (Config.freeSpi s.platform.draws,
           { s with platform := { s.platform with draws := s.platform.draws + 1 } })

/-- The platform's answer to a BUSY read (41_bus_primitives.md R122). -/
def nextBusy (s : State) : Level × State :=
  match s.platform.busy with
  | l :: more => (l, { s with platform := { s.platform with busy := more } })
  | [] => (Config.freeBusy s.platform.draws,
           { s with platform := { s.platform with draws := s.platform.draws + 1 } })

/-- The platform's clock draw: the excess over the least value R125 allows. -/
def nextClock (s : State) : Nat × State :=
  match s.platform.clock with
  | x :: more => (x, { s with platform := { s.platform with clock := more } })
  | [] => (Config.freeClock s.platform.draws,
           { s with platform := { s.platform with draws := s.platform.draws + 1 } })

/-- How many bytes a failed write of `n` bytes delivered: any number up to all of them (20_memory.md R57). -/
def nextDelivered (n : Nat) (s : State) : Nat × State :=
  match s.platform.delivered with
  | d :: more => (min d n, { s with platform := { s.platform with delivered := more } })
  | [] => (min (Config.freeDelivered s.platform.draws) n,
           { s with platform := { s.platform with draws := s.platform.draws + 1 } })

/-! ## Port events -/

/-- A latch set to a level. -/
def Latches.set (la : Latches) (p : OutPin) (l : Level) : Latches :=
  match p with
  | .reset => { la with reset := l }
  | .dc => { la with dc := l }
  | .power => { la with power := l }

/-- The level a latch holds. -/
def Latches.get (la : Latches) (p : OutPin) : Level :=
  match p with
  | .reset => la.reset
  | .dc => la.dc
  | .power => la.power

/-- `SetPin(p, l)`: emitted also when the latch already holds `l` (41_bus_primitives.md R121). -/
def setPin (p : OutPin) (l : Level) (s : State) : State :=
  emit (.setPin p l) { s with latches := Latches.set s.latches p l }

/-- Whether an answer means that all `n` bytes were written; a short count does not (41_bus_primitives.md R123). -/
def spiSuccess (a : SpiAnswer) (n : Nat) : Bool :=
  match a with
  | .all => true
  | .count k => k == n
  | .err => false

/-- A write that fails: the panel may have taken in any prefix of its bytes (20_memory.md R57). -/
def spiFail (bytes : List Byte) (s : State) : State :=
  emit (.spiWrite bytes (.err (nextDelivered bytes.length s).1)) (nextDelivered bytes.length s).2

/-- `SpiWrite(bytes)` (41_bus_primitives.md R123). -/
def spiWrite (bytes : List Byte) (s : State) : PortResult :=
  if spiSuccess (nextSpi s).1 bytes.length then .ok (emit (.spiWrite bytes .ok) (nextSpi s).2)
  else .fault (spiFail bytes (nextSpi s).2)

/-- `ReadPin(BUSY)`: the level, and the state after it (41_bus_primitives.md R122). -/
def readBusy (s : State) : Level × State :=
  ((nextBusy s).1, emit (.readBusy (nextBusy s).1) (nextBusy s).2)

/-- `Sleep(ms)` (41_bus_primitives.md R124); the platform counts it for the clock law of R125. -/
def sleepFor (ms : Nat) (s : State) : State :=
  emit (.sleep ms) { s with platform := { s.platform with slept := s.platform.slept + ms } }

/-- The least clock value R125 allows now: `t_prev + s`, or 0 where this request has read no clock. -/
def clockFloor (p : Platform) : Nat :=
  match p.lastNow with
  | some t => t + p.slept
  | none => 0

/-- `Now()`: the clock value, and the state after it (41_bus_primitives.md R125). -/
def readClock (s : State) : Nat × State :=
  let t := clockFloor s.platform + (nextClock s).1
  let s' := (nextClock s).2
  (t, emit (.now t) { s' with platform := { s'.platform with lastNow := some t, slept := 0 } })

/-- The start of a request for the clock law: no clock was read in it yet (41_bus_primitives.md R125). -/
def startClock (s : State) : State :=
  { s with platform := { s.platform with lastNow := none, slept := 0 } }

/-! ## Frames -/

/-- Go on with `f` after a write that went through. -/
def PortResult.andThen (r : PortResult) (f : State → PortResult) : PortResult :=
  match r with
  | .ok s => f s
  | .fault s => .fault s

/-- `SendCmd(c)` (41_bus_primitives.md R126). -/
def sendCmd (c : Byte) (s : State) : PortResult := spiWrite [c] (setPin .dc .low s)

/-- `SendData(p)` (41_bus_primitives.md R127): nothing when `p` is empty. -/
def sendData (p : List Byte) (s : State) : PortResult :=
  if p.isEmpty then .ok s else spiWrite p (setPin .dc .high s)

/-- `SendCmdData(c, p)` (41_bus_primitives.md R128). -/
def sendCmdData (c : Byte) (p : List Byte) (s : State) : PortResult :=
  (sendCmd c s).andThen (sendData p)

/-- `Poll` (43_busy_poller.md R171). -/
def poll (s : State) : PollResult :=
  match sendCmd 0x71 s with
  | .ok s' => .answered (readBusy s').1 (readBusy s').2
  | .fault s' => .fault s'

/-! ## Errors and the end of a request -/

/-- The end of a running request: STATUS is written and the sequencer is empty (10_state.md R25, R32). -/
def endRequest (e : Status) (s : State) : State := writeStatus e { s with seq := none }

/-- Raise an error (60_exceptions.md R229) in the running request `k`, or in none (a request its guard refuses).
A transport fault sets FAULT and freezes STATE (R222), but a RELEASE still gives up the pins and the bus
(42_controller.md R148, R149); a timeout returns to Idle (R223); every other error writes STATUS alone (R228). -/
def raiseError (k : Option RequestKind) (e : Status) (s : State) : State :=
  match e with
  | .transportFault =>
    endRequest .transportFault
      { setFault s with panel := if k = some .release then .absent else s.panel }
  | .busyTimeout => endRequest .busyTimeout { s with panel := .idle }
  | .ok => writeStatus .ok s
  | .acquisitionFailure => writeStatus .acquisitionFailure s
  | .sizeMismatch => writeStatus .sizeMismatch s
  | .invalidState => writeStatus .invalidState s
  | .invalidRequest => writeStatus .invalidRequest s
  | .faulted => writeStatus .faulted s

/-- The prologue (42_controller.md R140): the error a request is refused with, none where it proceeds. -/
def prologue (k : RequestKind) (s : State) : Option Status :=
  if k = .pack then none
  else if k = .new then (if s.panel = .absent then none else some .invalidState)
  else if s.panel = .absent then some .invalidState
  else if s.fault.f = true ∧ k ≠ .release then some .faulted
  else if k = .on ∧ s.panel ≠ .off then some .invalidState
  else if (k = .display ∨ k = .clear ∨ k = .awaitBusy ∨ k = .awaitBusyT) ∧ s.panel ≠ .idle then
    some .invalidState
  else none

/-! ## What can be observed -/

/-- The pins and the bus are held (10_state.md R29). -/
def busHeld (s : State) : Bool := s.panel != .absent

/-- The level of an output pin: its latch while a session holds it (10_state.md R26). While none does, it is whatever
RELEASED_PIN_BEHAVIOUR makes of it (00_scope.md R7, 42_controller.md R148), which the spec leaves OPEN: the model takes
it as the argument `released`. DESIGN CHOICE, log 10: `released` may be any function of the state and the pin. -/
def pinLevel (released : State → OutPin → Level) (s : State) (p : OutPin) : Level :=
  if busHeld s then Latches.get s.latches p else released s p

/-- The byte stream the bus delivered to the panel, with DC levels; `dc` is the level before the first event
(30_encoding.md R76; 93_implementation_defined.md I4). A failed write delivered the prefix its platform answer says, any
prefix being possible (20_memory.md R57; log 23). What the panel made of these bytes is not modelled. -/
def dcStream (dc : Level) : List PortEvent → List (Level × Byte)
  | [] => []
  | .setPin .dc l :: rest => dcStream l rest
  | .spiWrite bytes .ok :: rest => bytes.map (fun b => (dc, b)) ++ dcStream dc rest
  | .spiWrite bytes (.err n) :: rest => (bytes.take n).map (fun b => (dc, b)) ++ dcStream dc rest
  | _ :: rest => dcStream dc rest

/-- Whether an event is a write that failed. -/
def failedWrite : PortEvent → Bool
  | .spiWrite _ (.err _) => true
  | .spiWrite _ .ok => false
  | .setPin _ _ => false
  | .readBusy _ => false
  | .sleep _ => false
  | .now _ => false

/-- No write has failed yet. From the first failed write on, nothing may be assumed of the panel's state (20_memory.md
R57, 93_implementation_defined.md I1). -/
def panelKnown (s : State) : Bool := !s.trace.any failedWrite

end Sys2Proof.Machine
end

