-- ==== Sys2Proof/Machine/Sequencer.lean ====
section
/-! DEFINITION. Running a request's pseudocode line by line, the named scripts (30_encoding.md R85), and what a step
finds to do (42_controller.md R151). -/

namespace Sys2Proof.Machine

/-! ## Running pseudocode -/

/-- `AwaitBusyUnbounded` up to its next busy poll (43_busy_poller.md R172). A poll that reads Low leaves the sleep and
the loop to do, so that a panel that is never ready keeps the request running for ever (70_reset_and_hazards.md R257). -/
def runAwaitBusy (s : State) : OpResult :=
  match poll s with
  | .fault s' => .raise .transportFault s'
  | .answered .high s' => .done s'
  | .answered .low s' => .wait [.sleep tPoll, .awaitBusy] s'

/-- `AwaitBusyTimed(d)` from its first poll (43_busy_poller.md R173): the deadline is set when it reads Low.
DESIGN CHOICE, log 9: DEADLINE keeps this value after the wait and through every other request until the next one sets it,
where 10_state.md R31 leaves it unspecified outside AWAIT_BUSY_T. -/
def runAwaitTimed (d : Nat) (s : State) : OpResult :=
  match poll s with
  | .fault s' => .raise .transportFault s'
  | .answered .high s' => .done s'
  | .answered .low s' =>
    .wait [.sleep tPoll, .pollTimed] { (readClock s').2 with deadline := (readClock s').1 + d }

/-- A later poll of `AwaitBusyTimed` (43_busy_poller.md R173): the comparison is strict. -/
def runPollTimed (s : State) : OpResult :=
  match poll s with
  | .fault s' => .raise .transportFault s'
  | .answered .high s' => .done s'
  | .answered .low s' =>
    if s'.deadline < (readClock s').1 then .raise .busyTimeout (readClock s').2
    else .wait [.sleep tPoll, .pollTimed] (readClock s').2

/-- `SendCmdData(c, p)` as a line of pseudocode. -/
def runSend (c : Byte) (p : List Byte) (s : State) : OpResult :=
  match sendCmdData c p s with
  | .ok s' => .done s'
  | .fault s' => .raise .transportFault s'

/-- One line of pseudocode. -/
def runOp (op : SeqOp) (s : State) : OpResult :=
  match op with
  | .enter p => .done { s with panel := p }
  | .setPin p l => .done (setPin p l s)
  | .sleep ms => .done (sleepFor ms s)
  | .send c p => runSend c p s
  | .awaitBusy => runAwaitBusy s
  | .awaitTimed d => runAwaitTimed d s
  | .pollTimed => runPollTimed s
  | .finish p => .done (writeStatus .ok { s with panel := p })

/-- The lines of request `k` in order, up to its end, an error, or a busy poll that reads Low (log 3). -/
def runOps (k : RequestKind) : List SeqOp → State → State
  | [], s => { s with seq := none }
  | op :: rest, s =>
    match runOp op s with
    | .done s' => runOps k rest s'
    | .wait again s' => { s' with seq := some { request := k, rest := again ++ rest } }
    | .raise e s' => raiseError (some k) e s'

/-- A request that runs pseudocode: its prologue, then its lines. -/
def runRequest (k : RequestKind) (lines : List SeqOp) (s : State) : State :=
  match prologue k s with
  | some e => raiseError none e s
  | none => runOps k lines s

/-- A bus command by itself: `SendCmdData(c, p)` (44_panel_commands.md R185), a failed write ending the request that the
sequencer is in (log 17). -/
def runBusCommand (c : Byte) (p : List Byte) (s : State) : State :=
  match sendCmdData c p s with
  | .ok s' => s'
  | .fault s' => raiseError (s'.seq.map (fun pos => pos.request)) .transportFault s'

/-! ## The scripts (30_encoding.md R85) -/

/-- The frames of a script parameter, in order. -/
def sendScript (script : Script) : List SeqOp := script.map (fun e => .send e.1 e.2)

/-- `ResetPulse` (42_controller.md R143). -/
def resetPulse : List SeqOp :=
  [.setPin .reset .high, .sleep tRstH1, .setPin .reset .low, .sleep tRstL,
   .setPin .reset .high, .sleep tRstH2]

/-- `InitScript` (42_controller.md R144). -/
def initScript (p : Params) : List SeqOp :=
  sendScript p.initSequence ++
  [.send 0x23 p.lutFullW.toList, .send 0x24 p.lutFullB.toList, .send 0x04 [], .awaitBusy]

/-- `TurnOnDisplay` (42_controller.md R146). -/
def turnOnDisplay : List SeqOp := [.send 0x12 [], .sleep tRefresh, .awaitBusy]

/-- `OffSequence` (42_controller.md R149). -/
def offSequence (p : Params) : List SeqOp :=
  sendScript p.shutdownSequence ++
  [.awaitBusy, .sleep tOff, .setPin .power .low, .enter .off]

/-- The lines of ON (42_controller.md R142). -/
def onLines (p : Params) : List SeqOp :=
  [.enter .poweringOn, .setPin .power .high] ++ resetPulse ++ [.enter .initializing] ++
  initScript p ++ [.finish .idle]

/-- The lines of DISPLAY after the pack (42_controller.md R145). -/
def displayLines (p : Params) (buf : List Byte) : List SeqOp :=
  [.enter .busy, .send 0x10 (refBuffer p.refMode buf), .send 0x13 buf] ++ turnOnDisplay ++ [.finish .idle]

/-- The lines of CLEAR (42_controller.md R147). -/
def clearLines (p : Params) : List SeqOp :=
  [.enter .busy, .send 0x10 (fill p.clearFill1 Config.bufLen), .send 0x13 (fill p.clearFill2 Config.bufLen)] ++
  turnOnDisplay ++ [.finish .idle]

/-- The lines of RELEASE (42_controller.md R148); its last line gives up the pins and the bus. -/
def releaseLines (p : Params) : List SeqOp :=
  [.enter .shuttingDown] ++ offSequence p ++ [.finish .absent]

/-- The lines of AWAIT_BUSY (43_busy_poller.md R174). -/
def awaitBusyLines : List SeqOp := [.enter .busy, .awaitBusy, .finish .idle]

/-- The lines of AWAIT_BUSY_T (43_busy_poller.md R175). -/
def awaitBusyTLines (d : Nat) : List SeqOp := [.enter .busy, .awaitTimed d, .finish .idle]

/-! ## What a step finds to do -/

/-- Which request sends a command (30_encoding.md R80): the context a bus command runs in by itself (log 5). -/
def sentBy (code : Byte) : RequestKind :=
  match code.toNat with
  | 0x02 => .release
  | 0x07 => .release
  | 0x10 => .display
  | 0x12 => .display
  | 0x13 => .display
  | 0x71 => .awaitBusy
  | _ => .on

/-- What a step finds to do: while a request runs, its next bus command or else its next lines; between requests, the
next request the host offers (42_controller.md R151, 10_state.md R20). -/
def fetch (s : State) : Fetched :=
  match s.seq with
  | some pos =>
    match pos.rest with
    | .send c p :: rest =>
      match decodeCommand c p with
      | some i => .instr i { s with seq := some { pos with rest := rest } }
      | none => .resume pos.request pos.rest
    | _ => .resume pos.request pos.rest
  | none =>
    match s.requests with
    | [] => .idle
    | r :: more =>
      match decodeRequest r with
      | some i => .instr i { s with requests := more }
      | none => .reserved { s with requests := more }

end Sys2Proof.Machine
end

