-- ==== Sys2Proof/Machine/Bus.lean ====
section
/-! DEFINITION. The meanings of the bus commands (44_panel_commands.md R185 to R203): each is sent as a command frame of
its code and, where there is data, one data frame. What the panel does with it is outside the block (00_scope.md R4). -/

namespace Sys2Proof.Machine

/-- `0x71`, busy query (R186). -/
def execBusyQuery (s : State) : Host.Outcome State Fault Refusal :=
  .next (runBusCommand 0x71 [] s)

/-- `0x12`, trigger display refresh (R187). -/
def execDisplayRefresh (s : State) : Host.Outcome State Fault Refusal :=
  .next (runBusCommand 0x12 [] s)

/-- `0x10`, write first image buffer (R188). -/
def execWriteBuffer1 (data : List Byte) (s : State) : Host.Outcome State Fault Refusal :=
  .next (runBusCommand 0x10 data s)

/-- `0x13`, write second image buffer (R189). -/
def execWriteBuffer2 (data : List Byte) (s : State) : Host.Outcome State Fault Refusal :=
  .next (runBusCommand 0x13 data s)

/-- `0x23`, write W waveform table (R190). -/
def execLutW (data : List Byte) (s : State) : Host.Outcome State Fault Refusal :=
  .next (runBusCommand 0x23 data s)

/-- `0x24`, write B waveform table (R191). -/
def execLutB (data : List Byte) (s : State) : Host.Outcome State Fault Refusal :=
  .next (runBusCommand 0x24 data s)

/-- `0x01`, power setting (R192). -/
def execPowerSetting (data : List Byte) (s : State) : Host.Outcome State Fault Refusal :=
  .next (runBusCommand 0x01 data s)

/-- `0x06`, charge pump (R193). -/
def execChargePump (data : List Byte) (s : State) : Host.Outcome State Fault Refusal :=
  .next (runBusCommand 0x06 data s)

/-- `0x2A`, LUT option (R194). -/
def execLutOption (data : List Byte) (s : State) : Host.Outcome State Fault Refusal :=
  .next (runBusCommand 0x2A data s)

/-- `0x30`, clock frequency (R195). -/
def execClockFrequency (data : List Byte) (s : State) : Host.Outcome State Fault Refusal :=
  .next (runBusCommand 0x30 data s)

/-- `0x50`, VCOM/interval (R196). -/
def execVcomInterval (data : List Byte) (s : State) : Host.Outcome State Fault Refusal :=
  .next (runBusCommand 0x50 data s)

/-- `0x60`, gate/source timing (R197). -/
def execGateSourceTiming (data : List Byte) (s : State) : Host.Outcome State Fault Refusal :=
  .next (runBusCommand 0x60 data s)

/-- `0x61`, resolution (R198). -/
def execResolution (data : List Byte) (s : State) : Host.Outcome State Fault Refusal :=
  .next (runBusCommand 0x61 data s)

/-- `0x82`, VCOM_DC (R199). -/
def execVcomDc (data : List Byte) (s : State) : Host.Outcome State Fault Refusal :=
  .next (runBusCommand 0x82 data s)

/-- `0xE3`, power saving (R200). -/
def execPowerSaving (data : List Byte) (s : State) : Host.Outcome State Fault Refusal :=
  .next (runBusCommand 0xE3 data s)

/-- `0x04`, power-on (R201). -/
def execPowerOn (s : State) : Host.Outcome State Fault Refusal :=
  .next (runBusCommand 0x04 [] s)

/-- `0x02`, power-off (R202). -/
def execPowerOff (data : List Byte) (s : State) : Host.Outcome State Fault Refusal :=
  .next (runBusCommand 0x02 data s)

/-- `0x07`, deep sleep (R203). -/
def execDeepSleep (data : List Byte) (s : State) : Host.Outcome State Fault Refusal :=
  .next (runBusCommand 0x07 data s)

end Sys2Proof.Machine
end

