-- ==== Sys2Proof/Machine/Busy.lean ====
section
/-! DEFINITION. The host's own busy waits: AWAIT_BUSY and AWAIT_BUSY_T (43_busy_poller.md R174, R175). -/

namespace Sys2Proof.Machine

/-- AWAIT_BUSY (43_busy_poller.md R174). -/
def execAwaitBusy (s : State) : Host.Outcome State Fault Refusal :=
  .next (runRequest .awaitBusy awaitBusyLines s)

/-- AWAIT_BUSY_T (43_busy_poller.md R175). -/
def execAwaitBusyT (tmo : BitVec 32) (s : State) : Host.Outcome State Fault Refusal :=
  .next (match prologue .awaitBusyT s with
    | some e => raiseError none e s
    | none => runOps .awaitBusyT (awaitBusyTLines (timeoutMs tmo)) (startClock s))

end Sys2Proof.Machine
end

