-- ==== Sys2Proof/Machine/Imaging.lean ====
section
/-! DEFINITION. The bit-packer (40_bitpacker.md) and the requests that use it or send full buffers: PACK, DISPLAY,
CLEAR. -/

namespace Sys2Proof.Machine

/-- The DEVBUF index of a pixel, `((127 - x) * 80 + y) div 8` (40_bitpacker.md R103, R104). -/
def pixelIndex (x : Fin Config.width) (y : Fin Config.height) : Fin Config.bufLen :=
  ⟨((127 - x.val) * 80 + y.val) / 8, by have := y.isLt; simp only [Config.height, Config.bufLen] at *; omega⟩

/-- The mask of a pixel in its byte, `0x80 >> (y mod 8)` (40_bitpacker.md R104). -/
def pixelMask (y : Fin Config.height) : Byte := 0x80#8 >>> (y.val % 8)

/-- One pixel (40_bitpacker.md R105): BLACK clears its bit, WHITE writes nothing. -/
def packPixel (img : Image) (y : Fin Config.height) (m : Memory) (x : Fin Config.width) : Memory :=
  match pixel img x.val y.val with
  | .black => memWrite m (pixelIndex x y) (memRead m (pixelIndex x y) &&& ~~~(pixelMask y))
  | .white => m

/-- Every DEVBUF byte set to 0xFF (40_bitpacker.md R102). -/
def packInit (m : Memory) : Memory :=
  (List.finRange Config.bufLen).foldl (fun m i => memWrite m i 0xFF) m

/-- One row of pixels, in the order of the loop of 40_bitpacker.md R106. -/
def packRow (img : Image) (m : Memory) (y : Fin Config.height) : Memory :=
  (List.finRange Config.width).foldl (packPixel img y) m

/-- `Pack(img)` past its size check (40_bitpacker.md R106). -/
def packPixels (img : Image) (m : Memory) : Memory :=
  (List.finRange Config.height).foldl (packRow img) (packInit m)

/-- `Pack(img)` (40_bitpacker.md R106): the new DEVBUF, or none for SIZE_MISMATCH (R101). -/
def packImage (img : Image) (m : Memory) : Option Memory :=
  if sizeMatches img then some (packPixels img m) else none

/-- PACK (40_bitpacker.md R100). -/
def execPack (img : Image) (s : State) : Host.Outcome State Fault Refusal :=
  .next (match prologue .pack s with
    | some e => raiseError none e s
    | none =>
      match packImage img s.devbuf with
      | some m => writeStatus .ok { s with devbuf := m }
      | none => raiseError none .sizeMismatch s)

/-- DISPLAY (42_controller.md R145): the image is packed before STATE changes and before any port event. -/
def execDisplay (img : Image) (s : State) : Host.Outcome State Fault Refusal :=
  .next (match prologue .display s with
    | some e => raiseError none e s
    | none =>
      match packImage img s.devbuf with
      | some m => runOps .display (displayLines s.params (bufferBytes m)) { s with devbuf := m }
      | none => raiseError none .sizeMismatch s)

/-- CLEAR (42_controller.md R147). -/
def execClear (s : State) : Host.Outcome State Fault Refusal :=
  .next (runRequest .clear (clearLines s.params) s)

end Sys2Proof.Machine
end

