-- ==== Sys2Proof/Machine/Session.lean ====
section
/-! DEFINITION. The requests that open, start and end a panel session: NEW, ON, RELEASE (42_controller.md R141, R142,
R148). -/

namespace Sys2Proof.Machine

/-- NEW past its guard (42_controller.md R141): one platform answer covers the pins and the bus; a grant sets the
latches, clears FAULT and opens the session. -/
def openSession (s : State) : State :=
  match (nextAcquire s).1 with
  | .refused => raiseError none .acquisitionFailure (nextAcquire s).2
  | .granted levels =>
    writeStatus .ok (clearFault { (nextAcquire s).2 with latches := levels, panel := .off })

/-- NEW (42_controller.md R141). -/
def execNew (s : State) : Host.Outcome State Fault Refusal :=
  .next (match prologue .new s with
    | some e => raiseError none e s
    | none => openSession s)

/-- ON (42_controller.md R142). -/
def execOn (s : State) : Host.Outcome State Fault Refusal :=
  .next (runRequest .on (onLines s.params) s)

/-- RELEASE (42_controller.md R148, R149). -/
def execRelease (s : State) : Host.Outcome State Fault Refusal :=
  .next (runRequest .release (releaseLines s.params) s)

end Sys2Proof.Machine
end

