-- ==== Sys2Proof/Machine/Dispatch.lean ====
section
/-! DEFINITION. One arm for each instruction: a direct call of its meaning. -/

namespace Sys2Proof.Machine

def exec (i : Instr) (s : State) : Host.Outcome State Fault Refusal :=
  match i with
  | .new => Sys2Proof.Machine.execNew s
  | .on => Sys2Proof.Machine.execOn s
  | .display img => Sys2Proof.Machine.execDisplay img s
  | .clear => Sys2Proof.Machine.execClear s
  | .release => Sys2Proof.Machine.execRelease s
  | .awaitBusy => Sys2Proof.Machine.execAwaitBusy s
  | .awaitBusyT tmo => Sys2Proof.Machine.execAwaitBusyT tmo s
  | .pack img => Sys2Proof.Machine.execPack img s
  | .busyQuery => Sys2Proof.Machine.execBusyQuery s
  | .displayRefresh => Sys2Proof.Machine.execDisplayRefresh s
  | .writeBuffer1 data => Sys2Proof.Machine.execWriteBuffer1 data s
  | .writeBuffer2 data => Sys2Proof.Machine.execWriteBuffer2 data s
  | .lutW data => Sys2Proof.Machine.execLutW data s
  | .lutB data => Sys2Proof.Machine.execLutB data s
  | .powerSetting data => Sys2Proof.Machine.execPowerSetting data s
  | .chargePump data => Sys2Proof.Machine.execChargePump data s
  | .lutOption data => Sys2Proof.Machine.execLutOption data s
  | .clockFrequency data => Sys2Proof.Machine.execClockFrequency data s
  | .vcomInterval data => Sys2Proof.Machine.execVcomInterval data s
  | .gateSourceTiming data => Sys2Proof.Machine.execGateSourceTiming data s
  | .resolution data => Sys2Proof.Machine.execResolution data s
  | .vcomDc data => Sys2Proof.Machine.execVcomDc data s
  | .powerSaving data => Sys2Proof.Machine.execPowerSaving data s
  | .powerOn => Sys2Proof.Machine.execPowerOn s
  | .powerOff data => Sys2Proof.Machine.execPowerOff data s
  | .deepSleep data => Sys2Proof.Machine.execDeepSleep data s

end Sys2Proof.Machine
end

