-- ==== Sys2Proof/Machine/Step.lean ====
section
/-! DEFINITION. One step of the block, and the placing of a table word where the next step takes its instruction. -/

namespace Sys2Proof.Machine

/-- One step: with no request running, the next offered request is decoded and executed, a reserved one refused with
INVALID_REQUEST (30_encoding.md R72); a running request goes on (42_controller.md R151); with nothing to do nothing
changes. -/
def step (s : State) : Host.Outcome State Fault Refusal :=
  match fetch s with
  | .idle => .next s
  | .reserved s' => .next (raiseError none .invalidRequest s')
  | .instr i s' => exec i s'
  | .resume k rest => .next (runOps k rest s)

/-- `s` with a table word as the next instruction: a host request at the head of the host port with no request
running, a bus command at the head of the sequencer, inside the request that sends it (log 7). -/
def State.withFetchWord (s : State) (nbits w : Nat) : State :=
  match tableEncoded nbits w with
  | .request r => { s with seq := none, requests := r :: s.requests }
  | .command c p => { s with seq := some { request := sentBy c, rest := [.send c p] } }

end Sys2Proof.Machine
end

