-- ==== Sys2Proof/Machine/Text.lean ====
section
/-! DEFINITION. The two written forms of the spec: host programs (30_encoding.md R83) and traces (R84). -/

namespace Sys2Proof.Machine

/-! ## Host programs (30_encoding.md R83) -/

/-- One line of a host program: the word it begins with, and its operand where it has one. -/
structure AsmLine where
  name : String
  img  : Option Image
  ms   : Option Nat
  deriving DecidableEq, Repr

/-- The instruction a line names, by its mnemonic or by the source's call name; none for an unknown name, a wrong
operand, or a number of milliseconds that TMO does not hold. -/
def parseLine (l : AsmLine) : Option Instr :=
  match l.img, l.ms with
  | none, none =>
    if l.name = "NEW" ∨ l.name = "new" then some .new
    else if l.name = "ON" ∨ l.name = "on" then some .on
    else if l.name = "CLEAR" ∨ l.name = "clear_screen" then some .clear
    else if l.name = "RELEASE" ∨ l.name = "off" ∨ l.name = "drop" then some .release
    else if l.name = "AWAIT_BUSY" ∨ l.name = "await_busy" then some .awaitBusy
    else none
  | some img, none =>
    if l.name = "DISPLAY" ∨ l.name = "display" then some (.display img)
    else if l.name = "PACK" ∨ l.name = "pack" then some (.pack img)
    else none
  | none, some d =>
    if (l.name = "AWAIT_BUSY_T" ∨ l.name = "await_busy") ∧ d < 2 ^ 32 then some (.awaitBusyT (BitVec.ofNat 32 d))
    else none
  | some _, some _ => none

/-- The hexadecimal digit of a number below 16. -/
def hexDigit (n : Nat) : Char := "0123456789ABCDEF".toList.getD n '?'

/-- `n` in `k` hexadecimal digits. -/
def hexDigits (k n : Nat) : String :=
  String.ofList ((List.range k).map (fun j => hexDigit (n / 16 ^ (k - 1 - j) % 16)))

/-- The encoding of a line: its 40-bit word as 10 hexadecimal digits, TMO then OP (R83). -/
def lineWord (l : AsmLine) : Option String :=
  match (parseLine l).map encode with
  | some (.request r) => some (hexDigits 10 r.word.toNat)
  | some (.command _ _) => none
  | none => none

/-- The value of a hexadecimal digit, `0` to `9` and `A` to `F`. -/
def hexDigitValue (c : Char) : Nat := if c.toNat ≤ '9'.toNat then c.toNat - '0'.toNat else c.toNat - 'A'.toNat + 10

/-- The number some hexadecimal digits stand for, the most significant first. -/
def hexValue (digits : List Char) : Nat := digits.foldl (fun n c => 16 * n + hexDigitValue c) 0

/-! ## Traces (30_encoding.md R84) -/

/-- A level as a trace line writes it. -/
def levelText : Level → String
  | .high => "H"
  | .low => "L"

/-- A pin as a trace line writes it. -/
def pinText : OutPin → String
  | .reset => "RESET"
  | .dc => "DC"
  | .power => "POWER"

/-- Bytes as a trace line writes them. -/
def bytesText (bytes : List Byte) : String :=
  "[" ++ String.intercalate " " (bytes.map (fun b => "0x" ++ hexDigits 2 b.toNat)) ++ "]"

/-- The trace line of a port event. -/
def eventText : PortEvent → String
  | .setPin p l => "PIN " ++ pinText p ++ " " ++ levelText l
  | .spiWrite bytes .ok => "WR " ++ bytesText bytes
  | .spiWrite bytes (.err _) => "WR " ++ bytesText bytes ++ " -> err"
  | .readBusy l => "READ BUSY -> " ++ levelText l
  | .sleep ms => "SLEEP " ++ toString ms
  | .now t => "NOW -> " ++ toString t

end Sys2Proof.Machine
end

