-- ==== Sys2Proof/Safety.lean ====
section
/-! DEFINITION. The terms claims are stated in: the traces the spec writes out for each request (95_test_vectors.md,
30_encoding.md R84), the answers that let them happen, and the invariants of the block. -/

namespace Sys2Proof.Machine

/-! ## Traces of the spec -/

/-- `CMD c` (30_encoding.md R84): the events of a command frame that goes through. -/
def cmdEvents (c : Byte) : List PortEvent := [.setPin .dc .low, .spiWrite [c] .ok]

/-- `DATA p` (R84): the events of a data frame that goes through; none for an empty payload. -/
def dataEvents (p : List Byte) : List PortEvent :=
  match p with
  | [] => []
  | b :: rest => [.setPin .dc .high, .spiWrite (b :: rest) .ok]

/-- `CMD c; DATA p`. -/
def frameEvents (c : Byte) (p : List Byte) : List PortEvent := cmdEvents c ++ dataEvents p

/-- The frames of a script parameter. -/
def scriptEvents (sc : Script) : List PortEvent := sc.flatMap (fun e => frameEvents e.1 e.2)

/-- `CMD 0x71; READ BUSY -> l`. -/
def pollEvents (l : Level) : List PortEvent := cmdEvents 0x71 ++ [.readBusy l]

/-- The DC level after a command with data `p`. -/
def dcAfter (p : List Byte) : Level :=
  match p with
  | [] => .low
  | _ :: _ => .high

/-- The events of ResetPulse (42_controller.md R143). -/
def resetPulseEvents : List PortEvent :=
  [.setPin .reset .high, .sleep 200, .setPin .reset .low, .sleep 2, .setPin .reset .high, .sleep 200]

/-- The frames ON sends before its busy wait (42_controller.md R144). -/
def initFrames (p : Params) : List PortEvent :=
  scriptEvents p.initSequence ++ frameEvents 0x23 p.lutFullW.toList ++ frameEvents 0x24 p.lutFullB.toList ++
  cmdEvents 0x04

/-- The trace of ON when its first busy read is `l` (42_controller.md R142). -/
def onEvents (p : Params) (l : Level) : List PortEvent :=
  .setPin .power .high :: resetPulseEvents ++ initFrames p ++ pollEvents l

/-- `Ref(DEVBUF)` of R145 (42_controller.md; vectors V55, V56), written out byte by byte for the statements: with REF_MODE
fill 1280 bytes of 0x00, with REF_MODE complement `[~DEVBUF[0], …, ~DEVBUF[1279]]`. -/
def referenceBytes (mode : RefMode) (devbuf : Memory) : List Byte :=
  match mode with
  | .fill => List.replicate 1280 0x00
  | .complement => (List.finRange 1280).map (fun i => ~~~memRead devbuf i)

/-- The trace of DISPLAY and CLEAR with buffers `a` and `b` when the first busy read is `l` (42_controller.md R145,
R146, R147). -/
def refreshEvents (a b : List Byte) (l : Level) : List PortEvent :=
  frameEvents 0x10 a ++ frameEvents 0x13 b ++ cmdEvents 0x12 ++ [.sleep 10] ++ pollEvents l

/-- The trace of RELEASE when its first busy read is High (42_controller.md R149). -/
def offEvents (p : Params) : List PortEvent :=
  scriptEvents p.shutdownSequence ++ pollEvents .high ++ [.sleep 2000, .setPin .power .low]

/-- The trace RELEASE adds when its first busy read is Low (42_controller.md R149, 43_busy_poller.md R172). -/
def offWaitEvents (p : Params) : List PortEvent := scriptEvents p.shutdownSequence ++ pollEvents .low

/-- The events after the busy wait of request `k` (42_controller.md R149). -/
def afterWaitEvents : RequestKind → List PortEvent
  | .new => []
  | .on => []
  | .display => []
  | .clear => []
  | .release => [.sleep 2000, .setPin .power .low]
  | .awaitBusy => []
  | .awaitBusyT => []
  | .pack => []

/-- The milliseconds a trace sleeps. -/
def sleepTotal : List PortEvent → Nat
  | [] => 0
  | .sleep ms :: rest => ms + sleepTotal rest
  | _ :: rest => sleepTotal rest

/-- The trace of AWAIT_BUSY when `k` reads are Low and the next is High (43_busy_poller.md R172). -/
def awaitBusyEvents : Nat → List PortEvent
  | 0 => pollEvents .high
  | k + 1 => pollEvents .low ++ [.sleep 50] ++ awaitBusyEvents k

/-- The trace of `k` further busy polls of a wait, each after its pause, all reading Low (43_busy_poller.md R172). -/
def busyPolls : Nat → List PortEvent
  | 0 => []
  | k + 1 => [.sleep 50] ++ pollEvents .low ++ busyPolls k

/-- The latches a trace's `SetPin` events leave (10_state.md R26). -/
def replayLatches (la : Latches) : List PortEvent → Latches
  | [] => la
  | .setPin p l :: rest => replayLatches (Latches.set la p l) rest
  | _ :: rest => replayLatches la rest

/-! ## The platform's answers -/

/-- The queued SPI answers left once each write of `evs` has taken one that means success; none where one is missing
or means failure (41_bus_primitives.md R123). -/
def writesAccepted : List PortEvent → List SpiAnswer → Option (List SpiAnswer)
  | [], q => some q
  | .spiWrite bytes _ :: rest, a :: q => if spiSuccess a bytes.length then writesAccepted rest q else none
  | .spiWrite _ _ :: _, [] => none
  | .setPin _ _ :: rest, q => writesAccepted rest q
  | .readBusy _ :: rest, q => writesAccepted rest q
  | .sleep _ :: rest, q => writesAccepted rest q
  | .now _ :: rest, q => writesAccepted rest q

/-! ## Invariants -/

/-- What a port event asks of the two events before it, the nearer one second: a write follows at once the setting of
DC, one byte with DC Low or at least one with DC High (30_encoding.md R77, R78, 41_bus_primitives.md R130); a BUSY
read follows at once a busy query that went through (20_memory.md R58). -/
def eventFramed (before last : Option PortEvent) (e : PortEvent) : Bool :=
  match e with
  | .spiWrite bytes _ =>
    (last == some (.setPin .dc .low) && bytes.length == 1) ||
    (last == some (.setPin .dc .high) && !bytes.isEmpty)
  | .readBusy _ => last == some (.spiWrite [0x71] .ok) && before == some (.setPin .dc .low)
  | .setPin _ _ => true
  | .sleep _ => true
  | .now _ => true

/-- Every event of a trace is framed, after two given events. -/
def framedAfter (before last : Option PortEvent) : List PortEvent → Bool
  | [] => true
  | e :: rest => eventFramed before last e && framedAfter last (some e) rest

/-- The whole trace is framed. -/
def traceFramed (s : State) : Bool := framedAfter none none s.trace

/-- FAULT.CAUSE is TRANSPORT_FAULT when FAULT.F is set and 0 when it is not (10_state.md R24). -/
def faultCoherent (s : State) : Bool :=
  s.fault.cause == (if s.fault.f then .transportFault else .ok)

/-- The STATE a request waits for BUSY in (10_state.md R21, 90_conflicts.md C6). -/
def waitingState : RequestKind → Option PanelState
  | .new => none
  | .on => some .initializing
  | .display => some .busy
  | .clear => some .busy
  | .release => some .shuttingDown
  | .awaitBusy => some .busy
  | .awaitBusyT => some .busy
  | .pack => none

/-- What is left of a request that waits for BUSY. -/
def waitingLines : RequestKind → List SeqOp
  | .new => []
  | .on => [.sleep 50, .awaitBusy, .finish .idle]
  | .display => [.sleep 50, .awaitBusy, .finish .idle]
  | .clear => [.sleep 50, .awaitBusy, .finish .idle]
  | .release => [.sleep 50, .awaitBusy, .sleep 2000, .setPin .power .low, .enter .off, .finish .absent]
  | .awaitBusy => [.sleep 50, .awaitBusy, .finish .idle]
  | .awaitBusyT => [.sleep 50, .pollTimed, .finish .idle]
  | .pack => []

/-! ## How a request ends -/

/-- `s` after a request refused with `e`: only STATUS is written, and the host has its response (42_controller.md
R140). -/
def refusedWith (e : Status) (s : State) : State := { s with status := e, responses := s.responses ++ [e] }

/-- From `s` to `t` a request ended with OK in STATE `p`. -/
def finishedIn (p : PanelState) (s t : State) : Prop :=
  t.seq = none ∧ t.panel = p ∧ t.fault = s.fault ∧ t.status = .ok ∧ t.responses = s.responses ++ [.ok]

/-- From `s` to `t` request `k` came to a busy poll that read Low and waits; STATUS is not written. -/
def waitsIn (k : RequestKind) (s t : State) : Prop :=
  t.seq = some { request := k, rest := waitingLines k } ∧ some t.panel = waitingState k ∧ t.fault = s.fault ∧
  t.status = s.status ∧ t.responses = s.responses

/-- From `s` to `t` a request met a transport fault and left STATE `p` (60_exceptions.md R222). -/
def faultedIn (p : PanelState) (s t : State) : Prop :=
  t.seq = none ∧ t.panel = p ∧ t.fault = { f := true, cause := .transportFault } ∧
  t.status = .transportFault ∧ t.responses = s.responses ++ [.transportFault]

/-- From `s` to `t` a timed wait ran out (60_exceptions.md R223). -/
def timedOut (s t : State) : Prop :=
  t.seq = none ∧ t.panel = .idle ∧ t.fault = s.fault ∧ t.status = .busyTimeout ∧
  t.responses = s.responses ++ [.busyTimeout]

/-- Fields that no line of a running request writes but the timed wait's deadline. -/
def keepsBuffers (s t : State) : Prop :=
  t.devbuf = s.devbuf ∧ t.requests = s.requests ∧ t.params = s.params

/-- The STATE request `k` ends in with OK (10_state.md R22). -/
def endState : RequestKind → PanelState
  | .new => .off
  | .on => .idle
  | .display => .idle
  | .clear => .idle
  | .release => .absent
  | .awaitBusy => .idle
  | .awaitBusyT => .idle
  | .pack => .idle

/-! ## Legal states -/

/-- Between requests STATE is Absent, Off or Idle, or frozen by a fault where ON or a Busy request met it (10_state.md
R21, R24); during one, the request waits for BUSY in its own STATE, with no fault but in RELEASE. -/
def sessionLegal (s : State) : Bool :=
  match s.seq with
  | none =>
    match s.panel with
    | .absent => true
    | .off => !s.fault.f
    | .idle => !s.fault.f
    | .initializing => s.fault.f
    | .busy => s.fault.f
    | .poweringOn => false
    | .shuttingDown => false
  | some pos =>
    waitingState pos.request == some s.panel && pos.rest == waitingLines pos.request &&
    (!s.fault.f || pos.request == .release)

/-- From the end of the reset pulse to RELEASE, POWER_L and RESET_L are High (42_controller.md R142, R143, R149). -/
def panelPowered (s : State) : Bool :=
  match s.panel with
  | .absent => true
  | .off => true
  | .poweringOn => true
  | .initializing => s.latches.power == .high && s.latches.reset == .high
  | .idle => s.latches.power == .high && s.latches.reset == .high
  | .busy => s.latches.power == .high && s.latches.reset == .high
  | .shuttingDown => true

/-- The invariant of the block. -/
def BlockInv (s : State) : Prop :=
  s.devbuf.wf = true ∧ faultCoherent s = true ∧ sessionLegal s = true ∧ panelPowered s = true ∧
  traceFramed s = true

end Sys2Proof.Machine
end

