-- ==== Sys2Proof/Certificates/Slice0/Obligations.lean ====
section
/-! DEFINITION. The statements for the provers. -/

open Sys2Proof Sys2Proof.Machine

/-! ## Encoding -/

/-- O1 (30_encoding.md R70, R71, R76 to R80): decoding the encoded form of any well-formed instruction gives it back,
with every operand. -/
def Obligations.DecodeOfEncodeGivesInstruction : Prop :=
  ∀ i : Instr, i.WellFormed → decode (encode i) = some i

/-- O2 (30_encoding.md R80): a bus command that decodes is well formed and encodes back to its own code and data, so
no two (code, data) pairs stand for one instruction. -/
def Obligations.DecodedCommandEncodesBack : Prop :=
  ∀ (c : Byte) (p : List Byte) (i : Instr), decodeCommand c p = some i →
    i.WellFormed ∧ encode i = .command c p

/-- O3 (30_encoding.md R71, R72, R80; vectors V19 to V28): every operation code of R71, the reserved codes at the ends of
their ranges, and every command code of R80 with the data lengths R80 gives it, written out from those tables. -/
def Obligations.WordsOfTheSpecDecode : Prop :=
  (∀ img : Image,
    decodeRequest { word := 0x0000000001, img := img } = some .new ∧
    decodeRequest { word := 0x0000000002, img := img } = some .on ∧
    decodeRequest { word := 0x0000000003, img := img } = some (.display img) ∧
    decodeRequest { word := 0x0000000004, img := img } = some .clear ∧
    decodeRequest { word := 0x0000000005, img := img } = some .release ∧
    decodeRequest { word := 0x0000000006, img := img } = some .awaitBusy ∧
    decodeRequest { word := 0x0000006407, img := img } = some (.awaitBusyT 100) ∧
    decodeRequest { word := 0x0000000007, img := img } = some (.awaitBusyT 0) ∧
    decodeRequest { word := 0xFFFFFFFF07, img := img } = some (.awaitBusyT 4294967295) ∧
    decodeRequest { word := 0xFFFFFFFF06, img := img } = some .awaitBusy ∧
    decodeRequest { word := 0x0000000008, img := img } = some (.pack img) ∧
    decodeRequest { word := 0x0000000108, img := img } = some (.pack img) ∧
    decodeRequest { word := 0x0000000000, img := img } = none ∧
    decodeRequest { word := 0x0000000009, img := img } = none ∧
    decodeRequest { word := 0x00000000FF, img := img } = none) ∧
  (∀ d : List Byte,
    decodeCommand 0x01 d = some (.powerSetting d) ∧ decodeCommand 0x02 d = some (.powerOff d) ∧
    decodeCommand 0x06 d = some (.chargePump d) ∧ decodeCommand 0x07 d = some (.deepSleep d) ∧
    decodeCommand 0x2A d = some (.lutOption d) ∧ decodeCommand 0x30 d = some (.clockFrequency d) ∧
    decodeCommand 0x50 d = some (.vcomInterval d) ∧ decodeCommand 0x60 d = some (.gateSourceTiming d) ∧
    decodeCommand 0x61 d = some (.resolution d) ∧ decodeCommand 0x82 d = some (.vcomDc d) ∧
    decodeCommand 0xE3 d = some (.powerSaving d) ∧
    decodeCommand 0x04 d = (if d = [] then some .powerOn else none) ∧
    decodeCommand 0x12 d = (if d = [] then some .displayRefresh else none) ∧
    decodeCommand 0x71 d = (if d = [] then some .busyQuery else none) ∧
    decodeCommand 0x10 d = (if d.length = 1280 then some (.writeBuffer1 d) else none) ∧
    decodeCommand 0x13 d = (if d.length = 1280 then some (.writeBuffer2 d) else none) ∧
    decodeCommand 0x23 d = (if d.length = 42 then some (.lutW d) else none) ∧
    decodeCommand 0x24 d = (if d.length = 42 then some (.lutB d) else none) ∧
    decodeCommand 0x00 d = none ∧ decodeCommand 0xFF d = none)

/-- O4 (30_encoding.md R72): a request with a reserved OP is refused with INVALID_REQUEST, with no port event and no
state changed but STATUS (the model's host port and list of responses follow it); a field that a request does not read
is ignored whatever its value. -/
def Obligations.ReservedOpRefusedAndUnreadFieldsIgnored : Prop :=
  (∀ (r : HostRequest) (more : List HostRequest) (s : State),
    opField r.word = 0 ∨ 9 ≤ (opField r.word).toNat → s.seq = none → s.requests = r :: more →
    step s = .next (refusedWith .invalidRequest { s with requests := more })) ∧
  (∀ r r' : HostRequest, opField r.word = opField r'.word →
    (opField r.word ≠ 0x07 ∨ tmoField r.word = tmoField r'.word) →
    (opField r.word ≠ 0x03 ∧ opField r.word ≠ 0x08 ∨ r.img = r'.img) →
    decodeRequest r = decodeRequest r')

/-- O5 (30_encoding.md R79): splitting the byte stream of any sequence of sent commands by DC gives back each command
code with its data, whatever the DC level was before. -/
def Obligations.StreamSplitsIntoItsCommands : Prop :=
  ∀ (dc : Level) (cmds : Script), splitStream (dcStream dc (scriptEvents cmds)) = cmds

/-- O6 (30_encoding.md R83): each name and alias of a host program line stands for its request, a number of milliseconds
below `2^32` is its TMO and no other number is taken; and the ten digits of a line read back as TMO and then OP of a
word that decodes to its request. (A line is taken as its name and operands already split: log 24.) -/
def Obligations.ProgramLinesEncodeTheirRequest : Prop :=
  (∀ n ∈ ["NEW", "new"], parseLine { name := n, img := none, ms := none } = some .new) ∧
  (∀ n ∈ ["ON", "on"], parseLine { name := n, img := none, ms := none } = some .on) ∧
  (∀ n ∈ ["CLEAR", "clear_screen"], parseLine { name := n, img := none, ms := none } = some .clear) ∧
  (∀ n ∈ ["RELEASE", "off", "drop"], parseLine { name := n, img := none, ms := none } = some .release) ∧
  (∀ n ∈ ["AWAIT_BUSY", "await_busy"], parseLine { name := n, img := none, ms := none } = some .awaitBusy) ∧
  (∀ n ∈ ["AWAIT_BUSY_T", "await_busy"], ∀ d : Nat,
    parseLine { name := n, img := none, ms := some d } =
      if d < 2 ^ 32 then some (.awaitBusyT (BitVec.ofNat 32 d)) else none) ∧
  (∀ n ∈ ["DISPLAY", "display"], ∀ img : Image,
    parseLine { name := n, img := some img, ms := none } = some (.display img)) ∧
  (∀ n ∈ ["PACK", "pack"], ∀ img : Image,
    parseLine { name := n, img := some img, ms := none } = some (.pack img)) ∧
  lineWord { name := "AWAIT_BUSY_T", img := none, ms := some 100 } = some "0000006407" ∧
  (∀ (l : AsmLine) (i : Instr), parseLine l = some i →
    ∃ r digits, encode i = .request r ∧ decodeRequest r = some i ∧
      lineWord l = some digits ∧ digits.toList.length = 10 ∧
      hexValue (digits.toList.take 8) = (tmoField r.word).toNat ∧
      hexValue (digits.toList.drop 8) = (opField r.word).toNat)

/-! ## Steps -/

/-- O7 (10_state.md R20, 42_controller.md R151): a step runs the decoded instruction: the offered request when none runs.
That a bus command at the head of the sequencer position is fetched as an instruction of its own is the model's choice
(DESIGN CHOICE, log 5), and so is it that nothing changes with no request running or offered (DESIGN CHOICE, log 4). -/
def Obligations.StepRunsDecodedInstruction : Prop :=
  (∀ (s : State) (r : HostRequest) (more : List HostRequest) (i : Instr),
    s.seq = none → s.requests = r :: more → decodeRequest r = some i →
    step s = exec i { s with requests := more }) ∧
  (∀ (s : State) (k : RequestKind) (c : Byte) (p : List Byte) (rest : List SeqOp) (i : Instr),
    s.seq = some { request := k, rest := .send c p :: rest } → decodeCommand c p = some i →
    step s = exec i { s with seq := some { request := k, rest := rest } }) ∧
  (∀ s : State, s.seq = none → s.requests = [] → step s = .next s)

/-- O8: no instruction stops the block; every one leaves a next state. This is the model's deduction (DEDUCED, log 16)
from 60_exceptions.md R229 and R230, by which every error is reported and another request may follow. -/
def Obligations.EveryInstructionGoesOn : Prop :=
  ∀ (i : Instr) (s : State), ∃ t, exec i s = .next t

/-- O9 (42_controller.md R151): while a request runs, no other is taken from the host port. -/
def Obligations.RunningRequestTakesNoOther : Prop :=
  ∀ s t : State, s.seq ≠ none → step s = .next t → t.requests = s.requests

/-! ## Guards and errors -/

/-- O10 (60_exceptions.md R225, R227): a request whose guard fails is refused with INVALID_STATE or FAULTED and changes
STATUS alone (with the model's list of responses). -/
def Obligations.GuardsRefuseAndChangeOnlyStatus : Prop :=
  ∀ (s : State) (img : Image) (tmo : BitVec 32),
    (s.panel ≠ .absent → exec .new s = .next (refusedWith .invalidState s)) ∧
    (s.panel = .absent →
      ∀ i ∈ [Instr.on, .display img, .clear, .release, .awaitBusy, .awaitBusyT tmo],
        exec i s = .next (refusedWith .invalidState s)) ∧
    (s.panel ≠ .absent → s.fault.f = true →
      ∀ i ∈ [Instr.on, .display img, .clear, .awaitBusy, .awaitBusyT tmo],
        exec i s = .next (refusedWith .faulted s)) ∧
    (s.panel ≠ .absent → s.fault.f = false → s.panel ≠ .off →
      exec .on s = .next (refusedWith .invalidState s)) ∧
    (s.panel ≠ .absent → s.fault.f = false → s.panel ≠ .idle →
      ∀ i ∈ [Instr.display img, .clear, .awaitBusy, .awaitBusyT tmo],
        exec i s = .next (refusedWith .invalidState s))

/-- O11 (60_exceptions.md R224): PACK in any state, and DISPLAY past its guard, of an image that is not 128 × 80 is
refused with SIZE_MISMATCH: no port event, DEVBUF, STATE and FAULT unchanged. -/
def Obligations.WrongSizeImageRefused : Prop :=
  ∀ (s : State) (img : Image), ¬(img.w = 128 ∧ img.h = 80) →
    exec (.pack img) s = .next (refusedWith .sizeMismatch s) ∧
    (s.panel = .idle → s.fault.f = false →
      exec (.display img) s = .next (refusedWith .sizeMismatch s))

/-- O12 (41_bus_primitives.md R123): a write appends its event and takes one answer; it goes through exactly when the
answer counts all its bytes, and a short count is a fault like `Err`; a failed write delivers at most its bytes
(20_memory.md R57, log 23). -/
def Obligations.WriteSucceedsOnlyOnFullCount : Prop :=
  ∀ (bytes : List Byte) (s : State) (a : SpiAnswer) (more : List SpiAnswer), s.platform.spi = a :: more →
    (a = .all ∨ a = .count bytes.length →
      spiWrite bytes s = .ok { s with trace := s.trace ++ [.spiWrite bytes .ok],
                                      platform := { s.platform with spi := more } }) ∧
    (a = .err ∨ (∃ n, a = .count n ∧ n ≠ bytes.length) →
      spiWrite bytes s = .fault (spiFail bytes { s with platform := { s.platform with spi := more } }) ∧
      ∃ n p, n ≤ bytes.length ∧
        spiFail bytes { s with platform := { s.platform with spi := more } } =
          { s with trace := s.trace ++ [.spiWrite bytes (.err n)], platform := p } ∧ p.spi = more)

/-- O13 (41_bus_primitives.md R123, R128, 60_exceptions.md R222): a bus command whose command frame fails, by an error or
a short count, queued or drawn freely, ends the running request at once: its data is not sent, FAULT is set, STATUS is TRANSPORT_FAULT, STATE is frozen unless the request is
RELEASE.
That DEADLINE is kept where R31 leaves it unspecified is the model's choice (DESIGN CHOICE, log 9). -/
def Obligations.FailedCommandFrameEndsRequest : Prop :=
  ∀ (i : Instr) (c : Byte) (p : List Byte) (s : State) (pos : Position),
    encode i = .command c p → s.seq = some pos →
    ((nextSpi s).1 = .err ∨ ∃ k, (nextSpi s).1 = .count k ∧ k ≠ 1) →
    ∃ n platform, n ≤ 1 ∧ platform.spi = s.platform.spi.tail ∧ exec i s = .next
      { s with
        trace := s.trace ++ [.setPin .dc .low, .spiWrite [c] (.err n)],
        latches := { s.latches with dc := .low },
        platform := platform,
        fault := { f := true, cause := .transportFault },
        status := .transportFault,
        responses := s.responses ++ [.transportFault],
        seq := none,
        panel := if pos.request = .release then .absent else s.panel }

/-! ## Bus commands -/

/-- O14 (44_panel_commands.md R185 to R203): each of the eighteen bus commands, when the platform accepts its frames,
completes: its command frame and, where it has data, its data frame are sent, and nothing else changes but the DC latch.
That it does so in any state, also in Absent and with no request running, where the spec has no such run, is the
model's choice (DESIGN CHOICE, log 17).
That DEADLINE is kept where R31 leaves it unspecified is the model's choice (DESIGN CHOICE, log 9). -/
def Obligations.BusCommandSendsItsFrames : Prop :=
  ∀ (i : Instr) (c : Byte) (p : List Byte) (s : State) (more : List SpiAnswer),
    encode i = .command c p → writesAccepted (frameEvents c p) s.platform.spi = some more →
    exec i s = .next
      { s with
        trace := s.trace ++ frameEvents c p,
        latches := { s.latches with dc := dcAfter p },
        platform := { s.platform with spi := more } }

/-- O15 (44_panel_commands.md R185): a frame line of a request's pseudocode does what the bus command of its code and
data does, and the request goes on from there, or is ended by the same fault. -/
def Obligations.ScriptLinesRunTheirBusCommand : Prop :=
  ∀ (k : RequestKind) (c : Byte) (p : List Byte) (i : Instr) (rest : List SeqOp) (s : State) (pos : Position),
    decodeCommand c p = some i → s.seq = some pos → pos.request = k →
    ∃ t, exec i s = .next t ∧
      ((t.responses = s.responses ∧ runOps k (.send c p :: rest) s = runOps k rest t) ∨
       (t.responses = s.responses ++ [.transportFault] ∧ runOps k (.send c p :: rest) s = t))

/-! ## The session: NEW, ON, RELEASE -/

/-- O16 (42_controller.md R141, 60_exceptions.md R221): NEW outside Absent is refused; in Absent a refused acquisition
leaves STATE Absent with ACQUISITION_FAILURE, and a granted one opens the session: latches at the drawn levels, FAULT
cleared, STATE Off; no port event in any case. -/
def Obligations.NewOpensSession : Prop :=
  ∀ s : State,
    (s.panel ≠ .absent → exec .new s = .next (refusedWith .invalidState s)) ∧
    (s.panel = .absent → (nextAcquire s).1 = .refused →
      exec .new s = .next (refusedWith .acquisitionFailure (nextAcquire s).2)) ∧
    (∀ levels, s.panel = .absent → (nextAcquire s).1 = .granted levels →
      exec .new s = .next
        { (nextAcquire s).2 with
          panel := .off, fault := { f := false, cause := .ok }, latches := levels,
          status := .ok, responses := s.responses ++ [.ok] })

/-- O17 (42_controller.md R142, R143, R144, 44_panel_commands.md R190, R191): ON from Off with no fault, its writes accepted
and BUSY High at once, completes: the trace is POWER high, the reset pulse, INIT_SEQUENCE, both full waveform tables,
0x04 and one busy poll; STATE is Idle.
That DEADLINE is kept where R31 leaves it unspecified is the model's choice (DESIGN CHOICE, log 9). -/
def Obligations.OnPowersUpAndInitialises : Prop :=
  ∀ (s : State) (more : List SpiAnswer) (levels : List Level),
    s.panel = .off → s.fault.f = false → s.platform.busy = .high :: levels →
    writesAccepted (onEvents s.params .high) s.platform.spi = some more →
    ∃ t, exec .on s = .next t ∧ finishedIn .idle s t ∧ t.trace = s.trace ++ onEvents s.params .high ∧
      t.latches = { reset := .high, dc := .low, power := .high } ∧ t.deadline = s.deadline ∧ keepsBuffers s t

/-- O18 (42_controller.md R148, R149): RELEASE in any STATE but Absent, faulted or not, with its writes accepted and
BUSY High at once, completes: SHUTDOWN_SEQUENCE, one busy poll, 2000 ms, POWER low; STATE is Absent, FAULT kept.
DEADLINE is unchanged (10_state.md R37). -/
def Obligations.ReleasePowersDown : Prop :=
  ∀ (s : State) (more : List SpiAnswer) (levels : List Level),
    s.panel ≠ .absent → s.platform.busy = .high :: levels →
    writesAccepted (offEvents s.params) s.platform.spi = some more →
    ∃ t, exec .release s = .next t ∧ finishedIn .absent s t ∧ t.trace = s.trace ++ offEvents s.params ∧
      t.latches = { s.latches with dc := .low, power := .low } ∧ t.deadline = s.deadline ∧ keepsBuffers s t

/-- O19 (42_controller.md R142): whatever the platform answers, ON past its guard ends in Idle with OK and the panel
powered, waits in Initializing, or meets a transport fault in Initializing.
That DEADLINE is kept where R31 leaves it unspecified is the model's choice (DESIGN CHOICE, log 9). -/
def Obligations.OnFinishesWaitsOrFaults : Prop :=
  ∀ s : State, s.panel = .off → s.fault.f = false →
    ∃ t, exec .on s = .next t ∧ keepsBuffers s t ∧ t.deadline = s.deadline ∧
      t.latches.reset = .high ∧ t.latches.power = .high ∧
      (finishedIn .idle s t ∨ waitsIn .on s t ∨ faultedIn .initializing s t)

/-- O20 (42_controller.md R148, R149): whatever the platform answers, RELEASE past its guard ends in Absent with OK
and POWER_L Low, waits in ShuttingDown, or is ended by a transport fault: STATE is still Absent, FAULT set, POWER_L
not driven.
DEADLINE is unchanged (10_state.md R37). -/
def Obligations.ReleaseFinishesWaitsOrFaults : Prop :=
  ∀ s : State, s.panel ≠ .absent →
    ∃ t, exec .release s = .next t ∧ keepsBuffers s t ∧ t.deadline = s.deadline ∧
      t.latches.reset = s.latches.reset ∧
      ((finishedIn .absent s t ∧ t.latches.power = .low) ∨
       (waitsIn .release s t ∧ t.latches.power = s.latches.power) ∨
       (faultedIn .absent s t ∧ t.latches.power = s.latches.power))

/-! ## Images: PACK, DISPLAY, CLEAR -/

/-- O21 (40_bitpacker.md R100): PACK of a 128 × 80 image completes in every state, faulted or not, with no port event:
only DEVBUF, to the packed image, and STATUS change (and the model's list of responses). -/
def Obligations.PackWritesDevbufAlone : Prop :=
  ∀ (s : State) (img : Image), img.w = 128 → img.h = 80 →
    exec (.pack img) s = .next
      { s with devbuf := packPixels img s.devbuf, status := .ok, responses := s.responses ++ [.ok] }

/-- O22 (40_bitpacker.md R108): the closed form. After a PACK, bit `[7-j]` of DEVBUF byte `i` is set exactly when the
pixel at scan position `8*i + j` is WHITE; from any two states, one of which may be the result of the same PACK, the
buffers are identical. -/
def Obligations.PackHasItsClosedForm : Prop :=
  ∀ (s s' : State) (img : Image), s.devbuf.wf = true → s'.devbuf.wf = true → img.w = 128 → img.h = 80 →
    ∃ t t', exec (.pack img) s = .next t ∧ exec (.pack img) s' = .next t' ∧ t.devbuf = t'.devbuf ∧
      ∀ (i : Fin Config.bufLen) (j : Nat), j < 8 →
        ((memRead t.devbuf i).getLsbD (7 - j) = true ↔
          pixel img (127 - (8 * i.val + j) / 80) ((8 * i.val + j) % 80) = .white)

/-- O23 (40_bitpacker.md R108): the packed buffer depends on the pixels alone, not on what DEVBUF held nor on the
image's representation; packing twice gives identical buffers. -/
def Obligations.PackDependsOnPixelsAlone : Prop :=
  ∀ (img img' : Image) (m m' : Memory), m.wf = true → m'.wf = true →
    (∀ x y, x < 128 → y < 80 → pixel img x y = pixel img' x y) →
    packPixels img m = packPixels img' m'

/-- O24 (40_bitpacker.md R109): an all-WHITE image packs to 0xFF in every byte, an all-BLACK one to 0x00. -/
def Obligations.UniformImagesPackToUniformBuffers : Prop :=
  ∀ (img : Image) (m : Memory), m.wf = true →
    ((∀ x y, x < 128 → y < 80 → pixel img x y = .white) → bufferBytes (packPixels img m) = fill 0xFF 1280) ∧
    ((∀ x y, x < 128 → y < 80 → pixel img x y = .black) → bufferBytes (packPixels img m) = fill 0x00 1280)

/-- O25 (40_bitpacker.md R110): a single BLACK pixel clears exactly one bit, at its byte and MSB-first position. -/
def Obligations.SingleBlackPixelClearsOneBit : Prop :=
  ∀ (img : Image) (m : Memory) (x y : Nat), m.wf = true → x < 128 → y < 80 →
    (∀ x' y', x' < 128 → y' < 80 → (pixel img x' y' = .black ↔ x' = x ∧ y' = y)) →
    ∀ (i : Fin Config.bufLen) (j : Nat), j < 8 →
      ((memRead (packPixels img m) i).getLsbD (7 - j) = false ↔
        i.val = ((127 - x) * 80 + y) / 8 ∧ j = y % 8)

/-- O26 (20_memory.md R53, R54, R55): the packed buffer as the bus shifts it is the pixels in scan order: bit `n` on the
wire is set exactly when the pixel at column `n div 80`, row `n mod 80` is WHITE. The bit order within a byte is the
spec's own inference (R55, log 22). -/
def Obligations.WireCarriesPixelsInScanOrder : Prop :=
  ∀ (img : Image) (m : Memory) (n : Nat), m.wf = true → n < 10240 →
    (wireBits (bufferBytes (packPixels img m)))[n]? = some (pixel img (127 - n / 80) (n % 80) == .white)

/-- O27 (42_controller.md R145, R146): DISPLAY from Idle of a 128 × 80 image, its writes accepted and BUSY High at once,
completes: DEVBUF is the packed image, the trace is 0x10 with the reference buffer, 0x13 with DEVBUF, 0x12, 10 ms and
one busy poll; STATE is Idle. The reference buffer has 1280 bytes (44_panel_commands.md R188): 0x00 in each with REF_MODE
fill, the byte-wise complement of the packed image with REF_MODE complement (vectors V55, V56).
That DEADLINE is kept where R31 leaves it unspecified is the model's choice (DESIGN CHOICE, log 9). -/
def Obligations.DisplaySendsPackedImage : Prop :=
  ∀ (s : State) (img : Image) (more : List SpiAnswer) (levels : List Level),
    s.panel = .idle → s.fault.f = false → img.w = 128 → img.h = 80 → s.platform.busy = .high :: levels →
    writesAccepted
      (refreshEvents (referenceBytes s.params.refMode (packPixels img s.devbuf))
        (bufferBytes (packPixels img s.devbuf)) .high) s.platform.spi = some more →
    ∃ t, exec (.display img) s = .next t ∧ finishedIn .idle s t ∧
      t.trace = s.trace ++
        refreshEvents (referenceBytes s.params.refMode (packPixels img s.devbuf))
          (bufferBytes (packPixels img s.devbuf)) .high ∧
      (referenceBytes s.params.refMode (packPixels img s.devbuf)).length = 1280 ∧
      (bufferBytes (packPixels img s.devbuf)).length = 1280 ∧
      t.devbuf = packPixels img s.devbuf ∧ t.latches = { s.latches with dc := .low } ∧
      t.deadline = s.deadline ∧ t.requests = s.requests ∧ t.params = s.params

/-- O28 (42_controller.md R147): CLEAR from Idle, its writes accepted and BUSY High at once, completes: both fills of
1280 bytes, 0x12, 10 ms and one busy poll; STATE is Idle and DEVBUF is not written.
That DEADLINE is kept where R31 leaves it unspecified is the model's choice (DESIGN CHOICE, log 9). -/
def Obligations.ClearSendsBothFills : Prop :=
  ∀ (s : State) (more : List SpiAnswer) (levels : List Level),
    s.panel = .idle → s.fault.f = false → s.platform.busy = .high :: levels →
    writesAccepted (refreshEvents (fill s.params.clearFill1 1280) (fill s.params.clearFill2 1280) .high)
      s.platform.spi = some more →
    ∃ t, exec .clear s = .next t ∧ finishedIn .idle s t ∧
      t.trace = s.trace ++ refreshEvents (fill s.params.clearFill1 1280) (fill s.params.clearFill2 1280) .high ∧
      t.latches = { s.latches with dc := .low } ∧ t.deadline = s.deadline ∧ keepsBuffers s t

/-- O29 (42_controller.md R145, R147, 60_exceptions.md R222): whatever the platform answers, DISPLAY of a 128 × 80 image
and CLEAR, past their guards, end in Idle with OK, wait in Busy, or meet a transport fault in Busy; DISPLAY writes
DEVBUF in every case and CLEAR in none; RESET_L and POWER_L are unchanged.
That DEADLINE is kept where R31 leaves it unspecified is the model's choice (DESIGN CHOICE, log 9). -/
def Obligations.RefreshFinishesWaitsOrFaults : Prop :=
  ∀ s : State, s.panel = .idle → s.fault.f = false →
    (∀ img : Image, img.w = 128 → img.h = 80 →
      ∃ t, exec (.display img) s = .next t ∧ t.devbuf = packPixels img s.devbuf ∧ t.requests = s.requests ∧
        t.params = s.params ∧ t.deadline = s.deadline ∧
        t.latches.reset = s.latches.reset ∧ t.latches.power = s.latches.power ∧
        (finishedIn .idle s t ∨ waitsIn .display s t ∨ faultedIn .busy s t)) ∧
    (∃ t, exec .clear s = .next t ∧ keepsBuffers s t ∧ t.deadline = s.deadline ∧
      t.latches.reset = s.latches.reset ∧ t.latches.power = s.latches.power ∧
      (finishedIn .idle s t ∨ waitsIn .clear s t ∨ faultedIn .busy s t))

/-! ## Busy waits -/

/-- O30 (43_busy_poller.md R174, R175): AWAIT_BUSY and AWAIT_BUSY_T from Idle, the query accepted and BUSY High at once,
complete with one poll, no sleep and no clock read.
That DEADLINE is kept where R31 leaves it unspecified is the model's choice (DESIGN CHOICE, log 9). -/
def Obligations.AwaitReturnsAtOnceWhenNotBusy : Prop :=
  ∀ (s : State) (tmo : BitVec 32) (more : List SpiAnswer) (levels : List Level),
    s.panel = .idle → s.fault.f = false → s.platform.busy = .high :: levels →
    writesAccepted (pollEvents .high) s.platform.spi = some more →
    ∀ i ∈ [Instr.awaitBusy, .awaitBusyT tmo],
      ∃ t, exec i s = .next t ∧ finishedIn .idle s t ∧ t.trace = s.trace ++ pollEvents .high ∧
        t.latches = { s.latches with dc := .low } ∧ t.deadline = s.deadline ∧ keepsBuffers s t

/-- O31 (43_busy_poller.md R174, R175): whatever the platform answers, both waits past their guard end in Idle with OK,
wait in Busy, or meet a transport fault in Busy; AWAIT_BUSY writes no deadline; DEVBUF, RESET_L and POWER_L are
unchanged.
That DEADLINE is kept where R31 leaves it unspecified is the model's choice (DESIGN CHOICE, log 9). -/
def Obligations.AwaitFinishesWaitsOrFaults : Prop :=
  ∀ s : State, s.panel = .idle → s.fault.f = false →
    (∃ t, exec .awaitBusy s = .next t ∧ keepsBuffers s t ∧ t.deadline = s.deadline ∧
      t.latches.reset = s.latches.reset ∧ t.latches.power = s.latches.power ∧
      (finishedIn .idle s t ∨ waitsIn .awaitBusy s t ∨ faultedIn .busy s t)) ∧
    (∀ tmo, ∃ t, exec (.awaitBusyT tmo) s = .next t ∧ keepsBuffers s t ∧
      t.latches.reset = s.latches.reset ∧ t.latches.power = s.latches.power ∧
      (finishedIn .idle s t ∨ waitsIn .awaitBusyT s t ∨ faultedIn .busy s t))

/-- O32 (43_busy_poller.md R172; source property S5): AWAIT_BUSY with `k` Low reads and then a High one returns OK after
`k + 1` polls and `k` pauses of 50 ms, for every `k`. -/
def Obligations.AwaitBusyReturnsAfterAnyNumberOfPolls : Prop :=
  ∀ (k : Nat) (s : State) (r : HostRequest) (rest : List HostRequest) (more : List SpiAnswer) (levels : List Level),
    s.panel = .idle → s.fault.f = false → s.seq = none →
    s.requests = r :: rest → decodeRequest r = some .awaitBusy →
    s.platform.busy = List.replicate k .low ++ .high :: levels →
    writesAccepted (awaitBusyEvents k) s.platform.spi = some more →
    ∃ t, Sys2Proof.core.run (k + 1) s = .next t ∧ finishedIn .idle s t ∧
      t.trace = s.trace ++ awaitBusyEvents k ∧ t.requests = rest ∧ t.devbuf = s.devbuf

/-- O33 (70_reset_and_hazards.md R257): an unbounded wait of any request whose BUSY reads stay Low goes on for any
number of polls: no STATUS, no other request, the same position. -/
def Obligations.UnboundedWaitHangsWhileBusy : Prop :=
  ∀ (n : Nat) (k : RequestKind) (s : State) (more : List SpiAnswer) (levels : List Level),
    k ∈ [RequestKind.on, .display, .clear, .release, .awaitBusy] →
    s.seq = some { request := k, rest := waitingLines k } →
    s.platform.busy = List.replicate n .low ++ levels →
    writesAccepted (busyPolls n) s.platform.spi = some more →
    ∃ t, Sys2Proof.core.run n s = .next t ∧ t.seq = s.seq ∧ t.status = s.status ∧ t.responses = s.responses ∧
      t.requests = s.requests ∧ t.panel = s.panel ∧ t.fault = s.fault ∧ t.trace = s.trace ++ busyPolls n

/-- O34 (43_busy_poller.md R173): the timed wait with its queries accepted. The first poll Low: the deadline is the
clock plus TMO. A later poll High: OK, whatever the deadline. A later poll Low: the clock is read, and the wait times
out exactly when it is past the deadline. DEADLINE does not change while the wait goes on (R173). That it is kept after
the timeout too, where R31 leaves it unspecified, is the model's choice (DESIGN CHOICE, log 9); vector P3 of
95_test_vectors.md gives it so for its run. -/
def Obligations.TimedWaitFollowsItsDeadline : Prop :=
  (∀ (s : State) (tmo : BitVec 32) (more : List SpiAnswer) (levels : List Level) (x : Nat) (draws : List Nat),
    s.panel = .idle → s.fault.f = false → s.platform.busy = .low :: levels → s.platform.clock = x :: draws →
    writesAccepted (pollEvents .low) s.platform.spi = some more →
    ∃ t, exec (.awaitBusyT tmo) s = .next t ∧ waitsIn .awaitBusyT s t ∧
      t.trace = s.trace ++ pollEvents .low ++ [.now x] ∧ t.deadline = x + tmo.toNat) ∧
  (∀ (s : State) (more : List SpiAnswer) (levels : List Level),
    s.seq = some { request := .awaitBusyT, rest := waitingLines .awaitBusyT } →
    s.platform.busy = .high :: levels → writesAccepted (pollEvents .high) s.platform.spi = some more →
    ∃ t, step s = .next t ∧ finishedIn .idle s t ∧ t.trace = s.trace ++ [.sleep 50] ++ pollEvents .high) ∧
  (∀ (s : State) (more : List SpiAnswer) (levels : List Level) (x t0 : Nat) (draws : List Nat),
    s.seq = some { request := .awaitBusyT, rest := waitingLines .awaitBusyT } →
    s.panel = .busy → s.platform.busy = .low :: levels → s.platform.clock = x :: draws →
    s.platform.lastNow = some t0 → writesAccepted (pollEvents .low) s.platform.spi = some more →
    ∃ t, step s = .next t ∧ t.deadline = s.deadline ∧
      t.trace = s.trace ++ [.sleep 50] ++ pollEvents .low ++ [.now (t0 + (s.platform.slept + 50) + x)] ∧
      (if s.deadline < t0 + (s.platform.slept + 50) + x then timedOut s t else waitsIn .awaitBusyT s t))

/-- O35 (43_busy_poller.md R173, R175, 41_bus_primitives.md R125): AWAIT_BUSY_T ends within `TMO/50 + 2` polls whatever
the platform answers. That a step makes one poll of a wait is the model's choice (DESIGN CHOICE, log 3). -/
def Obligations.TimedWaitEndsWhateverThePlatformAnswers : Prop :=
  ∀ (s : State) (r : HostRequest) (rest : List HostRequest) (tmo : BitVec 32),
    s.panel = .idle → s.fault.f = false → s.seq = none →
    s.requests = r :: rest → decodeRequest r = some (.awaitBusyT tmo) →
    ∃ n t, n ≤ tmo.toNat / 50 + 2 ∧ Sys2Proof.core.run n s = .next t ∧ t.seq = none ∧ t.requests = rest ∧
      (finishedIn .idle s t ∨ timedOut s t ∨ faultedIn .busy s t)

/-- O36 (41_bus_primitives.md R125): a clock value is at least the one before it plus the sleeps between them. -/
def Obligations.ClockAdvancesByTheSleeps : Prop :=
  ∀ (s : State) (pauses : List Nat),
    (readClock s).1 + pauses.sum ≤
      (readClock (pauses.foldl (fun u ms => sleepFor ms u) (readClock s).2)).1

/-- O37 (70_reset_and_hazards.md R255, R264): a step of any waiting request is a pause of 50 ms and a busy query, and
sends nothing else; while the wait goes on nothing follows but the read and, in the timed wait, a clock read. -/
def Obligations.WaitingRequestSendsOnlyQueries : Prop :=
  ∀ (k : RequestKind) (s t : State),
    k ∈ [RequestKind.on, .display, .clear, .release, .awaitBusy, .awaitBusyT] →
    s.seq = some { request := k, rest := waitingLines k } → step s = .next t →
    ∃ r evs, t.trace = s.trace ++ [.sleep 50, .setPin .dc .low, .spiWrite [0x71] r] ++ evs ∧
      (∀ (b : List Byte) (r' : WriteResult), PortEvent.spiWrite b r' ∉ evs) ∧
      (t.seq ≠ none → r = .ok ∧
        if k = .awaitBusyT then ∃ x, evs = [.readBusy .low, .now x] else evs = [.readBusy .low])

/-! ## Whole-machine rules -/

/-- O38: the invariant holds at power-up. -/
def Obligations.InvHoldsAtReset : Prop := BlockInv State.reset

/-- O39 (10_state.md R21, R24, 20_memory.md R58, 30_encoding.md R77, R78, 41_bus_primitives.md R130): every step keeps
the invariant: DEVBUF in canonical form, FAULT.CAUSE agreeing with FAULT.F, STATE legal for the sequencer, the panel
powered while it is in use, and every event of the trace framed. -/
def Obligations.StepKeepsInv : Prop :=
  ∀ s t : State, BlockInv s → step s = .next t → BlockInv t

/-- O40 (10_state.md R34): no instruction and no step writes a parameter. -/
def Obligations.ParametersAreNeverWritten : Prop :=
  (∀ (i : Instr) (s t : State), exec i s = .next t → t.params = s.params) ∧
  (∀ s t : State, step s = .next t → t.params = s.params)

/-- O41 (10_state.md R30): DEVBUF is written only by the pack transform, in PACK and in DISPLAY, and never in a later
step of a request. -/
def Obligations.DevbufWrittenOnlyByPack : Prop :=
  (∀ (i : Instr) (s t : State), exec i s = .next t →
    t.devbuf = s.devbuf ∨
    ∃ img, (i = .pack img ∨ i = .display img) ∧ img.w = 128 ∧ img.h = 80 ∧
      t.devbuf = packPixels img s.devbuf) ∧
  (∀ s t : State, s.seq ≠ none → step s = .next t → t.devbuf = s.devbuf)

/-- O42 (10_state.md R24): the fault bit, once set, stays set through every instruction and every step but a NEW that
opens a session. -/
def Obligations.FaultStaysUntilNewSession : Prop :=
  (∀ (i : Instr) (s t : State), exec i s = .next t → s.fault.f = true →
    t.fault.f = true ∨ (i = .new ∧ s.panel = .absent ∧ t.panel = .off ∧ t.status = .ok)) ∧
  (∀ s t : State, s.seq ≠ none → step s = .next t → s.fault.f = true → t.fault.f = true)

/-- O43 (10_state.md R25): STATUS is written once at the end of every request. From a legal state a step leaves a
request running with nothing written, or ends one with exactly one response, its STATUS, or has nothing to do. -/
def Obligations.StatusWrittenOnceAtTheEnd : Prop :=
  ∀ s t : State, sessionLegal s = true → step s = .next t →
    (t.seq ≠ none ∧ t.status = s.status ∧ t.responses = s.responses) ∨
    (t.seq = none ∧ t.responses = s.responses ++ [t.status]) ∨
    (s.seq = none ∧ s.requests = [] ∧ t = s)

/-- O44 (10_state.md R26): the latches are written only by `SetPin`: through every instruction but NEW, and every later
step of a request, they are what the new events of the trace set. NEW leaves them or draws them with the acquisition.
While a session is open each drives its pin. -/
def Obligations.LatchesFollowSetPin : Prop :=
  (∀ (i : Instr) (s t : State), i ≠ .new → exec i s = .next t →
    ∃ evs, t.trace = s.trace ++ evs ∧ t.latches = replayLatches s.latches evs) ∧
  (∀ s t : State, s.seq ≠ none → step s = .next t →
    ∃ evs, t.trace = s.trace ++ evs ∧ t.latches = replayLatches s.latches evs) ∧
  (∀ s t : State, exec .new s = .next t →
    t.latches = s.latches ∨ (s.panel = .absent ∧ (nextAcquire s).1 = .granted t.latches)) ∧
  (∀ (released : State → OutPin → Level) (s : State) (p : OutPin), s.panel ≠ .absent →
    pinLevel released s p = Latches.get s.latches p)

/-- O45 (10_state.md R37, 70_reset_and_hazards.md R250, values the spec marks as its own, D3): block power-up; the first
action is to accept a host request. What the spec leaves unspecified (DEVBUF, DEADLINE, the latches) and the model's own
fields, logs 8 to 11, are not spoken of. -/
def Obligations.PowerUpValues : Prop :=
  State.reset.panel = .absent ∧ State.reset.fault = { f := false, cause := .ok } ∧ State.reset.status = .ok ∧
  State.reset.seq = none ∧ busHeld State.reset = false ∧
  ∀ (r : HostRequest) (i : Instr), decodeRequest r = some i →
    step { State.reset with requests := [r] } = exec i State.reset

/-- O46 (10_state.md R21, 60_exceptions.md R220): the codes the host reads. -/
def Obligations.CodesOfStateAndStatus : Prop :=
  [PanelState.absent, .off, .poweringOn, .initializing, .idle, .busy, .shuttingDown].map PanelState.code =
    [0, 1, 2, 3, 4, 5, 6] ∧
  [Status.ok, .acquisitionFailure, .transportFault, .busyTimeout, .sizeMismatch, .invalidState, .invalidRequest,
    .faulted].map Status.code = [0, 1, 2, 3, 4, 5, 6, 7]

/-- O47 (70_reset_and_hazards.md R263): with the writes accepted and BUSY High at once, the events ON adds to the trace
sleep 402 ms in all, and those of RELEASE 2000 ms, whatever the scripts hold. -/
def Obligations.SleepTotalsOfOnAndRelease : Prop :=
  (∀ (s : State) (more : List SpiAnswer) (levels : List Level),
    s.panel = .off → s.fault.f = false → s.platform.busy = .high :: levels →
    writesAccepted (onEvents s.params .high) s.platform.spi = some more →
    ∃ t evs, exec .on s = .next t ∧ t.trace = s.trace ++ evs ∧ sleepTotal evs = 402) ∧
  (∀ (s : State) (more : List SpiAnswer) (levels : List Level),
    s.panel ≠ .absent → s.platform.busy = .high :: levels →
    writesAccepted (offEvents s.params) s.platform.spi = some more →
    ∃ t evs, exec .release s = .next t ∧ t.trace = s.trace ++ evs ∧ sleepTotal evs = 2000)

/-- O48 (10_state.md R22): a host request changes STATE only as the table of transitions has it, between the points
where a request begins, waits and ends. -/
def Obligations.StateChangesOnlyByItsRequests : Prop :=
  ∀ (s t : State) (img : Image) (tmo : BitVec 32),
    (exec .new s = .next t → t.panel = s.panel ∨ (s.panel = .absent ∧ t.panel = .off)) ∧
    (exec .on s = .next t →
      t.panel = s.panel ∨ (s.panel = .off ∧ (t.panel = .initializing ∨ t.panel = .idle))) ∧
    (∀ i ∈ [Instr.display img, .clear, .awaitBusy, .awaitBusyT tmo], exec i s = .next t →
      t.panel = s.panel ∨ (s.panel = .idle ∧ t.panel = .busy)) ∧
    (exec .release s = .next t →
      t.panel = s.panel ∨ (s.panel ≠ .absent ∧ (t.panel = .shuttingDown ∨ t.panel = .absent))) ∧
    (exec (.pack img) s = .next t → t.panel = s.panel)

/-- O49 (60_exceptions.md R222, R229): from a legal state, a step in which a write fails ends its request at once: that
write is the last event and the only failed one, FAULT records a transport fault, STATUS and the response are
TRANSPORT_FAULT. -/
def Obligations.TransportFaultEndsRequestAtOnce : Prop :=
  ∀ (s t : State) (evs : List PortEvent), sessionLegal s = true → step s = .next t → t.trace = s.trace ++ evs →
    evs.any failedWrite = true →
    ∃ earlier b n, evs = earlier ++ [.spiWrite b (.err n)] ∧ earlier.any failedWrite = false ∧
      t.seq = none ∧ t.fault = { f := true, cause := .transportFault } ∧ t.status = .transportFault ∧
      t.responses = s.responses ++ [.transportFault]

/-- O50 (60_exceptions.md R221 to R227): from a legal state each error is reported only where the spec raises it.
ACQUISITION_FAILURE: a NEW that the platform refuses; no session, no port event. TRANSPORT_FAULT: a failed write, the
last event of the step. BUSY_TIMEOUT: a waiting AWAIT_BUSY_T; no fault bit set, STATE back to Idle. SIZE_MISMATCH: PACK
or DISPLAY of an image of another size; no port event, DEVBUF, STATE and FAULT unchanged. INVALID_STATE: a request in a
STATE it may not run in. INVALID_REQUEST: a reserved OP. FAULTED: a request but NEW, RELEASE and PACK with the fault bit
set outside Absent. -/
def Obligations.ErrorsComeOnlyFromTheirRequests : Prop :=
  ∀ (s t : State) (e : Status), sessionLegal s = true → step s = .next t → t.responses = s.responses ++ [e] →
    (e = .acquisitionFailure → ∃ r more, s.seq = none ∧ s.requests = r :: more ∧ decodeRequest r = some .new ∧
      (nextAcquire s).1 = .refused ∧ t.panel = .absent ∧ t.trace = s.trace) ∧
    (e = .transportFault → ∃ evs b n, t.trace = s.trace ++ evs ++ [.spiWrite b (.err n)]) ∧
    (e = .busyTimeout → s.seq = some { request := .awaitBusyT, rest := waitingLines .awaitBusyT } ∧
      t.panel = .idle ∧ t.fault = s.fault) ∧
    (e = .sizeMismatch → ∃ r more img, s.seq = none ∧ s.requests = r :: more ∧
      (decodeRequest r = some (.pack img) ∨ decodeRequest r = some (.display img)) ∧ ¬(img.w = 128 ∧ img.h = 80) ∧
      t.devbuf = s.devbuf ∧ t.trace = s.trace ∧ t.panel = s.panel ∧ t.fault = s.fault) ∧
    (e = .invalidState → ∃ r more i, s.seq = none ∧ s.requests = r :: more ∧ decodeRequest r = some i ∧
      t.trace = s.trace ∧
      ((i = .new ∧ s.panel ≠ .absent) ∨
       (i ≠ .new ∧ (∀ img, i ≠ .pack img) ∧ s.panel = .absent) ∨
       (i = .on ∧ s.panel ≠ .off ∧ s.fault.f = false) ∨
       ((i = .clear ∨ i = .awaitBusy ∨ (∃ img, i = .display img) ∨ ∃ tmo, i = .awaitBusyT tmo) ∧
        s.panel ≠ .idle ∧ s.fault.f = false))) ∧
    (e = .invalidRequest → ∃ r more, s.seq = none ∧ s.requests = r :: more ∧ decodeRequest r = none ∧
      t.trace = s.trace) ∧
    (e = .faulted → ∃ r more i, s.seq = none ∧ s.requests = r :: more ∧ decodeRequest r = some i ∧
      t.trace = s.trace ∧ s.fault.f = true ∧ s.panel ≠ .absent ∧ i ≠ .new ∧ i ≠ .release ∧ ∀ img, i ≠ .pack img)

/-! ## Waits, continued -/

/-- O51 (42_controller.md R142, R145 to R149, 43_busy_poller.md R172 to R175): a waiting request of any kind whose query
is accepted and whose next BUSY read is High ends with OK: after the pause and that poll, RELEASE sleeps 2000 ms, drives
POWER low and ends in Absent, and every other request ends in Idle.
That DEADLINE is kept where R31 leaves it unspecified is the model's choice (DESIGN CHOICE, log 9). -/
def Obligations.WaitingRequestEndsAtHighRead : Prop :=
  ∀ (k : RequestKind) (s : State) (more : List SpiAnswer) (levels : List Level),
    k ∈ [RequestKind.on, .display, .clear, .release, .awaitBusy, .awaitBusyT] →
    s.seq = some { request := k, rest := waitingLines k } → s.platform.busy = .high :: levels →
    writesAccepted (pollEvents .high) s.platform.spi = some more →
    ∃ t, step s = .next t ∧ finishedIn (endState k) s t ∧
      t.trace = s.trace ++ [.sleep 50] ++ pollEvents .high ++ afterWaitEvents k ∧
      t.latches = { s.latches with dc := .low, power := if k = .release then .low else s.latches.power } ∧
      t.deadline = s.deadline ∧ keepsBuffers s t

/-- O52 (42_controller.md R142 to R149, 43_busy_poller.md R172, R174): with the writes accepted and the first BUSY read
Low, ON, DISPLAY, CLEAR, RELEASE and AWAIT_BUSY have sent all their frames up to that poll, and wait. What DISPLAY sends
with 0x10 is `Ref(DEVBUF)` byte by byte, for each REF_MODE (R145). -/
def Obligations.LowFirstReadWaitsWithFramesSent : Prop :=
  ∀ (s : State) (more : List SpiAnswer) (levels : List Level), s.platform.busy = .low :: levels →
    (s.panel = .off → s.fault.f = false → writesAccepted (onEvents s.params .low) s.platform.spi = some more →
      ∃ t, exec .on s = .next t ∧ waitsIn .on s t ∧ t.trace = s.trace ++ onEvents s.params .low) ∧
    (∀ img : Image, s.panel = .idle → s.fault.f = false → img.w = 128 → img.h = 80 →
      writesAccepted
        (refreshEvents (referenceBytes s.params.refMode (packPixels img s.devbuf))
          (bufferBytes (packPixels img s.devbuf)) .low) s.platform.spi = some more →
      ∃ t, exec (.display img) s = .next t ∧ waitsIn .display s t ∧ t.devbuf = packPixels img s.devbuf ∧
        t.trace = s.trace ++
          refreshEvents (referenceBytes s.params.refMode (packPixels img s.devbuf))
            (bufferBytes (packPixels img s.devbuf)) .low) ∧
    (s.panel = .idle → s.fault.f = false →
      writesAccepted (refreshEvents (fill s.params.clearFill1 1280) (fill s.params.clearFill2 1280) .low)
        s.platform.spi = some more →
      ∃ t, exec .clear s = .next t ∧ waitsIn .clear s t ∧
        t.trace = s.trace ++ refreshEvents (fill s.params.clearFill1 1280) (fill s.params.clearFill2 1280) .low) ∧
    (s.panel ≠ .absent → writesAccepted (offWaitEvents s.params) s.platform.spi = some more →
      ∃ t, exec .release s = .next t ∧ waitsIn .release s t ∧ t.trace = s.trace ++ offWaitEvents s.params) ∧
    (s.panel = .idle → s.fault.f = false → writesAccepted (pollEvents .low) s.platform.spi = some more →
      ∃ t, exec .awaitBusy s = .next t ∧ waitsIn .awaitBusy s t ∧ t.trace = s.trace ++ pollEvents .low)

/-! ## What the host and the panel see -/

/-- O53 (30_encoding.md R75): PACK_OUT is 1280 bytes, byte `i` that of DEVBUF; a PACK or a DISPLAY that passes its guard
and its size check makes it the packed image, whatever else happens to the DISPLAY; nothing else changes it. -/
def Obligations.PackOutMirrorsDevbuf : Prop :=
  (∀ s : State, (packOut s).length = 1280 ∧
    ∀ i : Fin Config.bufLen, (packOut s)[i.val]? = some (memRead s.devbuf i)) ∧
  (∀ (s : State) (img : Image), img.w = 128 → img.h = 80 →
    (∃ t, exec (.pack img) s = .next t ∧ packOut t = bufferBytes (packPixels img s.devbuf)) ∧
    (s.panel = .idle → s.fault.f = false →
      ∃ t, exec (.display img) s = .next t ∧ packOut t = bufferBytes (packPixels img s.devbuf))) ∧
  (∀ (i : Instr) (s t : State), exec i s = .next t →
    packOut t = packOut s ∨
    ∃ img, (i = .pack img ∨ (i = .display img ∧ s.panel = .idle ∧ s.fault.f = false)) ∧ img.w = 128 ∧ img.h = 80 ∧
      packOut t = bufferBytes (packPixels img s.devbuf)) ∧
  (∀ s t : State, s.seq ≠ none → step s = .next t → packOut t = packOut s)

/-- O54 (20_memory.md R57): a failed write delivers a prefix of its bytes to the panel, and the platform may make it any
prefix; and once a write has failed, no step makes the panel's state known again. -/
def Obligations.FailedWriteDeliversAnyPrefix : Prop :=
  (∀ (bytes : List Byte) (s t : State), spiWrite bytes s = .fault t →
    ∃ n e, n ≤ bytes.length ∧ t.trace = s.trace ++ [e] ∧ failedWrite e = true ∧
      ∀ dc, dcStream dc [e] = (bytes.take n).map (fun b => (dc, b))) ∧
  (∀ (bytes : List Byte) (s : State) (n : Nat) (spi : List SpiAnswer) (ds : List Nat), n ≤ bytes.length →
    s.platform.spi = .err :: spi → s.platform.delivered = n :: ds →
    ∃ t, spiWrite bytes s = .fault t ∧
      ∀ dc, dcStream dc t.trace = dcStream dc (s.trace ++ [.spiWrite (bytes.take n) .ok])) ∧
  (∀ s t : State, step s = .next t → panelKnown s = false → panelKnown t = false)
end

