-- ==== Sys2Proof/Laws/State.lean ====
section
/-! SUPPORT. What each update of State leaves in each field. -/

namespace Sys2Proof.Machine

/-! ### emit -/

@[simp] theorem emit_panel (e : PortEvent) (s : State) : (emit e s).panel = s.panel := rfl
@[simp] theorem emit_fault (e : PortEvent) (s : State) : (emit e s).fault = s.fault := rfl
@[simp] theorem emit_status (e : PortEvent) (s : State) : (emit e s).status = s.status := rfl
@[simp] theorem emit_latches (e : PortEvent) (s : State) : (emit e s).latches = s.latches := rfl
@[simp] theorem emit_devbuf (e : PortEvent) (s : State) : (emit e s).devbuf = s.devbuf := rfl
@[simp] theorem emit_deadline (e : PortEvent) (s : State) : (emit e s).deadline = s.deadline := rfl
@[simp] theorem emit_seq (e : PortEvent) (s : State) : (emit e s).seq = s.seq := rfl
@[simp] theorem emit_requests (e : PortEvent) (s : State) : (emit e s).requests = s.requests := rfl
@[simp] theorem emit_platform (e : PortEvent) (s : State) : (emit e s).platform = s.platform := rfl
@[simp] theorem emit_trace (e : PortEvent) (s : State) : (emit e s).trace = s.trace ++ [e] := rfl
@[simp] theorem emit_responses (e : PortEvent) (s : State) : (emit e s).responses = s.responses := rfl
@[simp] theorem emit_params (e : PortEvent) (s : State) : (emit e s).params = s.params := rfl

/-! ### writeStatus -/

@[simp] theorem writeStatus_panel (e : Status) (s : State) : (writeStatus e s).panel = s.panel := rfl
@[simp] theorem writeStatus_fault (e : Status) (s : State) : (writeStatus e s).fault = s.fault := rfl
@[simp] theorem writeStatus_status (e : Status) (s : State) : (writeStatus e s).status = e := rfl
@[simp] theorem writeStatus_latches (e : Status) (s : State) : (writeStatus e s).latches = s.latches := rfl
@[simp] theorem writeStatus_devbuf (e : Status) (s : State) : (writeStatus e s).devbuf = s.devbuf := rfl
@[simp] theorem writeStatus_deadline (e : Status) (s : State) : (writeStatus e s).deadline = s.deadline := rfl
@[simp] theorem writeStatus_seq (e : Status) (s : State) : (writeStatus e s).seq = s.seq := rfl
@[simp] theorem writeStatus_requests (e : Status) (s : State) : (writeStatus e s).requests = s.requests := rfl
@[simp] theorem writeStatus_platform (e : Status) (s : State) : (writeStatus e s).platform = s.platform := rfl
@[simp] theorem writeStatus_trace (e : Status) (s : State) : (writeStatus e s).trace = s.trace := rfl
@[simp] theorem writeStatus_responses (e : Status) (s : State) : (writeStatus e s).responses = s.responses ++ [e] := rfl
@[simp] theorem writeStatus_params (e : Status) (s : State) : (writeStatus e s).params = s.params := rfl

/-! ### setFault -/

@[simp] theorem setFault_panel (s : State) : (setFault s).panel = s.panel := rfl
@[simp] theorem setFault_fault (s : State) : (setFault s).fault = { f := true, cause := .transportFault } := rfl
@[simp] theorem setFault_status (s : State) : (setFault s).status = s.status := rfl
@[simp] theorem setFault_latches (s : State) : (setFault s).latches = s.latches := rfl
@[simp] theorem setFault_devbuf (s : State) : (setFault s).devbuf = s.devbuf := rfl
@[simp] theorem setFault_deadline (s : State) : (setFault s).deadline = s.deadline := rfl
@[simp] theorem setFault_seq (s : State) : (setFault s).seq = s.seq := rfl
@[simp] theorem setFault_requests (s : State) : (setFault s).requests = s.requests := rfl
@[simp] theorem setFault_platform (s : State) : (setFault s).platform = s.platform := rfl
@[simp] theorem setFault_trace (s : State) : (setFault s).trace = s.trace := rfl
@[simp] theorem setFault_responses (s : State) : (setFault s).responses = s.responses := rfl
@[simp] theorem setFault_params (s : State) : (setFault s).params = s.params := rfl

/-! ### clearFault -/

@[simp] theorem clearFault_panel (s : State) : (clearFault s).panel = s.panel := rfl
@[simp] theorem clearFault_fault (s : State) : (clearFault s).fault = { f := false, cause := .ok } := rfl
@[simp] theorem clearFault_status (s : State) : (clearFault s).status = s.status := rfl
@[simp] theorem clearFault_latches (s : State) : (clearFault s).latches = s.latches := rfl
@[simp] theorem clearFault_devbuf (s : State) : (clearFault s).devbuf = s.devbuf := rfl
@[simp] theorem clearFault_deadline (s : State) : (clearFault s).deadline = s.deadline := rfl
@[simp] theorem clearFault_seq (s : State) : (clearFault s).seq = s.seq := rfl
@[simp] theorem clearFault_requests (s : State) : (clearFault s).requests = s.requests := rfl
@[simp] theorem clearFault_platform (s : State) : (clearFault s).platform = s.platform := rfl
@[simp] theorem clearFault_trace (s : State) : (clearFault s).trace = s.trace := rfl
@[simp] theorem clearFault_responses (s : State) : (clearFault s).responses = s.responses := rfl
@[simp] theorem clearFault_params (s : State) : (clearFault s).params = s.params := rfl

/-! ### setPin -/

@[simp] theorem setPin_panel (p : OutPin) (l : Level) (s : State) : (setPin p l s).panel = s.panel := rfl
@[simp] theorem setPin_fault (p : OutPin) (l : Level) (s : State) : (setPin p l s).fault = s.fault := rfl
@[simp] theorem setPin_status (p : OutPin) (l : Level) (s : State) : (setPin p l s).status = s.status := rfl
@[simp] theorem setPin_latches (p : OutPin) (l : Level) (s : State) : (setPin p l s).latches = Latches.set s.latches p l := rfl
@[simp] theorem setPin_devbuf (p : OutPin) (l : Level) (s : State) : (setPin p l s).devbuf = s.devbuf := rfl
@[simp] theorem setPin_deadline (p : OutPin) (l : Level) (s : State) : (setPin p l s).deadline = s.deadline := rfl
@[simp] theorem setPin_seq (p : OutPin) (l : Level) (s : State) : (setPin p l s).seq = s.seq := rfl
@[simp] theorem setPin_requests (p : OutPin) (l : Level) (s : State) : (setPin p l s).requests = s.requests := rfl
@[simp] theorem setPin_platform (p : OutPin) (l : Level) (s : State) : (setPin p l s).platform = s.platform := rfl
@[simp] theorem setPin_trace (p : OutPin) (l : Level) (s : State) : (setPin p l s).trace = s.trace ++ [.setPin p l] := rfl
@[simp] theorem setPin_responses (p : OutPin) (l : Level) (s : State) : (setPin p l s).responses = s.responses := rfl
@[simp] theorem setPin_params (p : OutPin) (l : Level) (s : State) : (setPin p l s).params = s.params := rfl

/-! ### sleepFor -/

@[simp] theorem sleepFor_panel (ms : Nat) (s : State) : (sleepFor ms s).panel = s.panel := rfl
@[simp] theorem sleepFor_fault (ms : Nat) (s : State) : (sleepFor ms s).fault = s.fault := rfl
@[simp] theorem sleepFor_status (ms : Nat) (s : State) : (sleepFor ms s).status = s.status := rfl
@[simp] theorem sleepFor_latches (ms : Nat) (s : State) : (sleepFor ms s).latches = s.latches := rfl
@[simp] theorem sleepFor_devbuf (ms : Nat) (s : State) : (sleepFor ms s).devbuf = s.devbuf := rfl
@[simp] theorem sleepFor_deadline (ms : Nat) (s : State) : (sleepFor ms s).deadline = s.deadline := rfl
@[simp] theorem sleepFor_seq (ms : Nat) (s : State) : (sleepFor ms s).seq = s.seq := rfl
@[simp] theorem sleepFor_requests (ms : Nat) (s : State) : (sleepFor ms s).requests = s.requests := rfl
@[simp] theorem sleepFor_platform (ms : Nat) (s : State) : (sleepFor ms s).platform = { s.platform with slept := s.platform.slept + ms } := rfl
@[simp] theorem sleepFor_trace (ms : Nat) (s : State) : (sleepFor ms s).trace = s.trace ++ [.sleep ms] := rfl
@[simp] theorem sleepFor_responses (ms : Nat) (s : State) : (sleepFor ms s).responses = s.responses := rfl
@[simp] theorem sleepFor_params (ms : Nat) (s : State) : (sleepFor ms s).params = s.params := rfl

/-! ### startClock -/

@[simp] theorem startClock_panel (s : State) : (startClock s).panel = s.panel := rfl
@[simp] theorem startClock_fault (s : State) : (startClock s).fault = s.fault := rfl
@[simp] theorem startClock_status (s : State) : (startClock s).status = s.status := rfl
@[simp] theorem startClock_latches (s : State) : (startClock s).latches = s.latches := rfl
@[simp] theorem startClock_devbuf (s : State) : (startClock s).devbuf = s.devbuf := rfl
@[simp] theorem startClock_deadline (s : State) : (startClock s).deadline = s.deadline := rfl
@[simp] theorem startClock_seq (s : State) : (startClock s).seq = s.seq := rfl
@[simp] theorem startClock_requests (s : State) : (startClock s).requests = s.requests := rfl
@[simp] theorem startClock_platform (s : State) : (startClock s).platform = { s.platform with lastNow := none, slept := 0 } := rfl
@[simp] theorem startClock_trace (s : State) : (startClock s).trace = s.trace := rfl
@[simp] theorem startClock_responses (s : State) : (startClock s).responses = s.responses := rfl
@[simp] theorem startClock_params (s : State) : (startClock s).params = s.params := rfl

/-! ### endRequest -/

@[simp] theorem endRequest_panel (e : Status) (s : State) : (endRequest e s).panel = s.panel := rfl
@[simp] theorem endRequest_fault (e : Status) (s : State) : (endRequest e s).fault = s.fault := rfl
@[simp] theorem endRequest_status (e : Status) (s : State) : (endRequest e s).status = e := rfl
@[simp] theorem endRequest_latches (e : Status) (s : State) : (endRequest e s).latches = s.latches := rfl
@[simp] theorem endRequest_devbuf (e : Status) (s : State) : (endRequest e s).devbuf = s.devbuf := rfl
@[simp] theorem endRequest_deadline (e : Status) (s : State) : (endRequest e s).deadline = s.deadline := rfl
@[simp] theorem endRequest_seq (e : Status) (s : State) : (endRequest e s).seq = none := rfl
@[simp] theorem endRequest_requests (e : Status) (s : State) : (endRequest e s).requests = s.requests := rfl
@[simp] theorem endRequest_platform (e : Status) (s : State) : (endRequest e s).platform = s.platform := rfl
@[simp] theorem endRequest_trace (e : Status) (s : State) : (endRequest e s).trace = s.trace := rfl
@[simp] theorem endRequest_responses (e : Status) (s : State) : (endRequest e s).responses = s.responses ++ [e] := rfl
@[simp] theorem endRequest_params (e : Status) (s : State) : (endRequest e s).params = s.params := rfl

/-! ### The platform's answers change the platform alone -/

@[simp] theorem nextAcquire_panel (s : State) : (nextAcquire s).2.panel = s.panel := by unfold nextAcquire; split <;> rfl
@[simp] theorem nextAcquire_fault (s : State) : (nextAcquire s).2.fault = s.fault := by unfold nextAcquire; split <;> rfl
@[simp] theorem nextAcquire_status (s : State) : (nextAcquire s).2.status = s.status := by unfold nextAcquire; split <;> rfl
@[simp] theorem nextAcquire_latches (s : State) : (nextAcquire s).2.latches = s.latches := by unfold nextAcquire; split <;> rfl
@[simp] theorem nextAcquire_devbuf (s : State) : (nextAcquire s).2.devbuf = s.devbuf := by unfold nextAcquire; split <;> rfl
@[simp] theorem nextAcquire_deadline (s : State) : (nextAcquire s).2.deadline = s.deadline := by unfold nextAcquire; split <;> rfl
@[simp] theorem nextAcquire_seq (s : State) : (nextAcquire s).2.seq = s.seq := by unfold nextAcquire; split <;> rfl
@[simp] theorem nextAcquire_requests (s : State) : (nextAcquire s).2.requests = s.requests := by unfold nextAcquire; split <;> rfl
@[simp] theorem nextAcquire_trace (s : State) : (nextAcquire s).2.trace = s.trace := by unfold nextAcquire; split <;> rfl
@[simp] theorem nextAcquire_responses (s : State) : (nextAcquire s).2.responses = s.responses := by unfold nextAcquire; split <;> rfl
@[simp] theorem nextAcquire_params (s : State) : (nextAcquire s).2.params = s.params := by unfold nextAcquire; split <;> rfl

@[simp] theorem nextSpi_panel (s : State) : (nextSpi s).2.panel = s.panel := by unfold nextSpi; split <;> rfl
@[simp] theorem nextSpi_fault (s : State) : (nextSpi s).2.fault = s.fault := by unfold nextSpi; split <;> rfl
@[simp] theorem nextSpi_status (s : State) : (nextSpi s).2.status = s.status := by unfold nextSpi; split <;> rfl
@[simp] theorem nextSpi_latches (s : State) : (nextSpi s).2.latches = s.latches := by unfold nextSpi; split <;> rfl
@[simp] theorem nextSpi_devbuf (s : State) : (nextSpi s).2.devbuf = s.devbuf := by unfold nextSpi; split <;> rfl
@[simp] theorem nextSpi_deadline (s : State) : (nextSpi s).2.deadline = s.deadline := by unfold nextSpi; split <;> rfl
@[simp] theorem nextSpi_seq (s : State) : (nextSpi s).2.seq = s.seq := by unfold nextSpi; split <;> rfl
@[simp] theorem nextSpi_requests (s : State) : (nextSpi s).2.requests = s.requests := by unfold nextSpi; split <;> rfl
@[simp] theorem nextSpi_trace (s : State) : (nextSpi s).2.trace = s.trace := by unfold nextSpi; split <;> rfl
@[simp] theorem nextSpi_responses (s : State) : (nextSpi s).2.responses = s.responses := by unfold nextSpi; split <;> rfl
@[simp] theorem nextSpi_params (s : State) : (nextSpi s).2.params = s.params := by unfold nextSpi; split <;> rfl

@[simp] theorem nextBusy_panel (s : State) : (nextBusy s).2.panel = s.panel := by unfold nextBusy; split <;> rfl
@[simp] theorem nextBusy_fault (s : State) : (nextBusy s).2.fault = s.fault := by unfold nextBusy; split <;> rfl
@[simp] theorem nextBusy_status (s : State) : (nextBusy s).2.status = s.status := by unfold nextBusy; split <;> rfl
@[simp] theorem nextBusy_latches (s : State) : (nextBusy s).2.latches = s.latches := by unfold nextBusy; split <;> rfl
@[simp] theorem nextBusy_devbuf (s : State) : (nextBusy s).2.devbuf = s.devbuf := by unfold nextBusy; split <;> rfl
@[simp] theorem nextBusy_deadline (s : State) : (nextBusy s).2.deadline = s.deadline := by unfold nextBusy; split <;> rfl
@[simp] theorem nextBusy_seq (s : State) : (nextBusy s).2.seq = s.seq := by unfold nextBusy; split <;> rfl
@[simp] theorem nextBusy_requests (s : State) : (nextBusy s).2.requests = s.requests := by unfold nextBusy; split <;> rfl
@[simp] theorem nextBusy_trace (s : State) : (nextBusy s).2.trace = s.trace := by unfold nextBusy; split <;> rfl
@[simp] theorem nextBusy_responses (s : State) : (nextBusy s).2.responses = s.responses := by unfold nextBusy; split <;> rfl
@[simp] theorem nextBusy_params (s : State) : (nextBusy s).2.params = s.params := by unfold nextBusy; split <;> rfl

@[simp] theorem nextClock_panel (s : State) : (nextClock s).2.panel = s.panel := by unfold nextClock; split <;> rfl
@[simp] theorem nextClock_fault (s : State) : (nextClock s).2.fault = s.fault := by unfold nextClock; split <;> rfl
@[simp] theorem nextClock_status (s : State) : (nextClock s).2.status = s.status := by unfold nextClock; split <;> rfl
@[simp] theorem nextClock_latches (s : State) : (nextClock s).2.latches = s.latches := by unfold nextClock; split <;> rfl
@[simp] theorem nextClock_devbuf (s : State) : (nextClock s).2.devbuf = s.devbuf := by unfold nextClock; split <;> rfl
@[simp] theorem nextClock_deadline (s : State) : (nextClock s).2.deadline = s.deadline := by unfold nextClock; split <;> rfl
@[simp] theorem nextClock_seq (s : State) : (nextClock s).2.seq = s.seq := by unfold nextClock; split <;> rfl
@[simp] theorem nextClock_requests (s : State) : (nextClock s).2.requests = s.requests := by unfold nextClock; split <;> rfl
@[simp] theorem nextClock_trace (s : State) : (nextClock s).2.trace = s.trace := by unfold nextClock; split <;> rfl
@[simp] theorem nextClock_responses (s : State) : (nextClock s).2.responses = s.responses := by unfold nextClock; split <;> rfl
@[simp] theorem nextClock_params (s : State) : (nextClock s).2.params = s.params := by unfold nextClock; split <;> rfl

@[simp] theorem nextDelivered_panel (n : Nat) (s : State) : (nextDelivered n s).2.panel = s.panel := by unfold nextDelivered; split <;> rfl
@[simp] theorem nextDelivered_fault (n : Nat) (s : State) : (nextDelivered n s).2.fault = s.fault := by unfold nextDelivered; split <;> rfl
@[simp] theorem nextDelivered_status (n : Nat) (s : State) : (nextDelivered n s).2.status = s.status := by unfold nextDelivered; split <;> rfl
@[simp] theorem nextDelivered_latches (n : Nat) (s : State) : (nextDelivered n s).2.latches = s.latches := by unfold nextDelivered; split <;> rfl
@[simp] theorem nextDelivered_devbuf (n : Nat) (s : State) : (nextDelivered n s).2.devbuf = s.devbuf := by unfold nextDelivered; split <;> rfl
@[simp] theorem nextDelivered_deadline (n : Nat) (s : State) : (nextDelivered n s).2.deadline = s.deadline := by unfold nextDelivered; split <;> rfl
@[simp] theorem nextDelivered_seq (n : Nat) (s : State) : (nextDelivered n s).2.seq = s.seq := by unfold nextDelivered; split <;> rfl
@[simp] theorem nextDelivered_requests (n : Nat) (s : State) : (nextDelivered n s).2.requests = s.requests := by unfold nextDelivered; split <;> rfl
@[simp] theorem nextDelivered_trace (n : Nat) (s : State) : (nextDelivered n s).2.trace = s.trace := by unfold nextDelivered; split <;> rfl
@[simp] theorem nextDelivered_responses (n : Nat) (s : State) : (nextDelivered n s).2.responses = s.responses := by unfold nextDelivered; split <;> rfl
@[simp] theorem nextDelivered_params (n : Nat) (s : State) : (nextDelivered n s).2.params = s.params := by unfold nextDelivered; split <;> rfl

/-! ### spiFail -/

@[simp] theorem spiFail_panel (bytes : List Byte) (s : State) : (spiFail bytes s).panel = s.panel := by simp [spiFail]
@[simp] theorem spiFail_fault (bytes : List Byte) (s : State) : (spiFail bytes s).fault = s.fault := by simp [spiFail]
@[simp] theorem spiFail_status (bytes : List Byte) (s : State) : (spiFail bytes s).status = s.status := by simp [spiFail]
@[simp] theorem spiFail_latches (bytes : List Byte) (s : State) : (spiFail bytes s).latches = s.latches := by simp [spiFail]
@[simp] theorem spiFail_devbuf (bytes : List Byte) (s : State) : (spiFail bytes s).devbuf = s.devbuf := by simp [spiFail]
@[simp] theorem spiFail_deadline (bytes : List Byte) (s : State) : (spiFail bytes s).deadline = s.deadline := by simp [spiFail]
@[simp] theorem spiFail_seq (bytes : List Byte) (s : State) : (spiFail bytes s).seq = s.seq := by simp [spiFail]
@[simp] theorem spiFail_requests (bytes : List Byte) (s : State) : (spiFail bytes s).requests = s.requests := by simp [spiFail]
@[simp] theorem spiFail_trace (bytes : List Byte) (s : State) : (spiFail bytes s).trace = s.trace ++ [.spiWrite bytes (.err (nextDelivered bytes.length s).1)] := by simp [spiFail]
@[simp] theorem spiFail_responses (bytes : List Byte) (s : State) : (spiFail bytes s).responses = s.responses := by simp [spiFail]
@[simp] theorem spiFail_params (bytes : List Byte) (s : State) : (spiFail bytes s).params = s.params := by simp [spiFail]

/-- A failed write delivers no more than its bytes. -/
theorem nextDelivered_le (n : Nat) (s : State) : (nextDelivered n s).1 ≤ n := by
  unfold nextDelivered
  split <;> exact Nat.min_le_right _ _

/-! ### readBusy and readClock -/

@[simp] theorem readBusy_panel (s : State) : (readBusy s).2.panel = s.panel := by simp [readBusy]
@[simp] theorem readBusy_fault (s : State) : (readBusy s).2.fault = s.fault := by simp [readBusy]
@[simp] theorem readBusy_status (s : State) : (readBusy s).2.status = s.status := by simp [readBusy]
@[simp] theorem readBusy_latches (s : State) : (readBusy s).2.latches = s.latches := by simp [readBusy]
@[simp] theorem readBusy_devbuf (s : State) : (readBusy s).2.devbuf = s.devbuf := by simp [readBusy]
@[simp] theorem readBusy_deadline (s : State) : (readBusy s).2.deadline = s.deadline := by simp [readBusy]
@[simp] theorem readBusy_seq (s : State) : (readBusy s).2.seq = s.seq := by simp [readBusy]
@[simp] theorem readBusy_requests (s : State) : (readBusy s).2.requests = s.requests := by simp [readBusy]
@[simp] theorem readBusy_trace (s : State) : (readBusy s).2.trace = s.trace ++ [.readBusy (readBusy s).1] := by simp [readBusy]
@[simp] theorem readBusy_responses (s : State) : (readBusy s).2.responses = s.responses := by simp [readBusy]
@[simp] theorem readBusy_params (s : State) : (readBusy s).2.params = s.params := by simp [readBusy]
@[simp] theorem readClock_panel (s : State) : (readClock s).2.panel = s.panel := by simp [readClock]
@[simp] theorem readClock_fault (s : State) : (readClock s).2.fault = s.fault := by simp [readClock]
@[simp] theorem readClock_status (s : State) : (readClock s).2.status = s.status := by simp [readClock]
@[simp] theorem readClock_latches (s : State) : (readClock s).2.latches = s.latches := by simp [readClock]
@[simp] theorem readClock_devbuf (s : State) : (readClock s).2.devbuf = s.devbuf := by simp [readClock]
@[simp] theorem readClock_deadline (s : State) : (readClock s).2.deadline = s.deadline := by simp [readClock]
@[simp] theorem readClock_seq (s : State) : (readClock s).2.seq = s.seq := by simp [readClock]
@[simp] theorem readClock_requests (s : State) : (readClock s).2.requests = s.requests := by simp [readClock]
@[simp] theorem readClock_trace (s : State) : (readClock s).2.trace = s.trace ++ [.now (readClock s).1] := by simp [readClock]
@[simp] theorem readClock_responses (s : State) : (readClock s).2.responses = s.responses := by simp [readClock]
@[simp] theorem readClock_params (s : State) : (readClock s).2.params = s.params := by simp [readClock]

/-! ### Latches -/

@[simp] theorem Latches.set_get (la : Latches) (p q : OutPin) (l : Level) :
    Latches.get (Latches.set la p l) q = if q = p then l else Latches.get la q := by
  cases p <;> cases q <;> rfl

@[simp] theorem Latches.set_dc_reset (la : Latches) (l : Level) : (Latches.set la .dc l).reset = la.reset := rfl
@[simp] theorem Latches.set_dc_power (la : Latches) (l : Level) : (Latches.set la .dc l).power = la.power := rfl
@[simp] theorem Latches.set_dc_dc (la : Latches) (l : Level) : (Latches.set la .dc l).dc = l := rfl
@[simp] theorem Latches.set_power_power (la : Latches) (l : Level) : (Latches.set la .power l).power = l := rfl
@[simp] theorem Latches.set_power_reset (la : Latches) (l : Level) : (Latches.set la .power l).reset = la.reset := rfl
@[simp] theorem Latches.set_power_dc (la : Latches) (l : Level) : (Latches.set la .power l).dc = la.dc := rfl
@[simp] theorem Latches.set_reset_reset (la : Latches) (l : Level) : (Latches.set la .reset l).reset = l := rfl
@[simp] theorem Latches.set_reset_power (la : Latches) (l : Level) : (Latches.set la .reset l).power = la.power := rfl
@[simp] theorem Latches.set_reset_dc (la : Latches) (l : Level) : (Latches.set la .reset l).dc = la.dc := rfl

end Sys2Proof.Machine
end

