-- ==== Sys2Proof/Laws/Memory.lean ====
section
/-! SUPPORT. The laws of DEVBUF: read after write, and the canonical form kept by every operation. -/

namespace Sys2Proof.Machine

/-! ## Rising cells -/

theorem rising_tail {x : Host.Cell} {m : Memory} (h : Memory.rising (x :: m) = true) : m.rising = true := by
  cases m with
  | nil => rfl
  | cons y r => simp only [Memory.rising, Bool.and_eq_true] at h; exact h.2

theorem rising_above {x : Host.Cell} {m : Memory} (h : Memory.rising (x :: m) = true) :
    ∀ c ∈ m, x.1 < c.1 := by
  induction m generalizing x with
  | nil => simp
  | cons y r ih =>
    simp only [Memory.rising, Bool.and_eq_true, decide_eq_true_eq] at h
    intro c hc
    rcases List.mem_cons.1 hc with rfl | hc
    · exact h.1
    · exact Nat.lt_trans h.1 (ih h.2 c hc)

theorem rising_cons {x : Host.Cell} {m : Memory} (hm : m.rising = true) (h : ∀ c ∈ m, x.1 < c.1) :
    Memory.rising (x :: m) = true := by
  cases m with
  | nil => rfl
  | cons y r => simp [Memory.rising, hm, h y]

/-- An index below every listed one is unlisted. -/
theorem cellsRead_below {a : Nat} {m : Memory} (h : ∀ c ∈ m, a < c.1) :
    cellsRead a m = Memory.unlisted := by
  induction m with
  | nil => rfl
  | cons x r ih =>
    have hx := h x (by simp)
    simp only [cellsRead]
    rw [if_neg (by omega), ih (fun c hc => h c (by simp [hc]))]

/-! ## Read after write -/

/-- A write gives the value written at its index and leaves every other index alone. -/
theorem cellsRead_cellsWrite (a b : Nat) (v : Byte) (m : Memory) (hm : m.rising = true) :
    cellsRead b (cellsWrite a v m) = if b = a then v else cellsRead b m := by
  induction m with
  | nil =>
    simp only [cellsWrite]
    split
    · rename_i hv; subst hv; simp [cellsRead]
    · by_cases hb : b = a
      · subst hb; simp [cellsRead]
      · simp [cellsRead, hb, Ne.symm hb]
  | cons x r ih =>
    obtain ⟨k, w⟩ := x
    have ih := ih (rising_tail hm)
    have habove := rising_above hm
    simp only at habove
    simp only [cellsWrite]
    by_cases h1 : k < a
    · rw [if_pos h1]
      simp only [cellsRead]
      by_cases hb : b = a
      · subst hb; rw [if_neg (by omega), ih]; simp
      · rw [ih]; simp [hb]
    · rw [if_neg h1]
      by_cases h2 : k = a
      · subst h2
        by_cases hv : v = Memory.unlisted
        · simp only [if_true, hv]
          by_cases hb : b = k
          · subst hb; simp [cellsRead_below habove]
          · simp [cellsRead, hb, Ne.symm hb]
        · simp only [if_true, hv, if_false, cellsRead]
          by_cases hb : b = k <;> simp [hb, eq_comm]
      · rw [if_neg h2]
        have hlt : ∀ c ∈ ((k, w) :: r : Memory), a < c.1 := by
          intro c hc
          rcases List.mem_cons.1 hc with rfl | hc
          · show a < k; omega
          · have := habove c hc; omega
        by_cases hv : v = Memory.unlisted
        · rw [if_pos hv]
          by_cases hb : b = a
          · subst hb; rw [cellsRead_below hlt]; simp [hv]
          · simp [hb]
        · rw [if_neg hv, cellsRead]
          by_cases hb : b = a
          · subst hb; simp
          · simp [hb, Ne.symm hb]

/-! ## The canonical form -/

theorem wf_iff (m : Memory) :
    m.wf = true ↔ m.rising = true ∧ ∀ c ∈ m, c.1 < Config.bufLen ∧ c.2 ≠ Memory.unlisted := by
  simp [Memory.wf, List.all_eq_true]

theorem wf_rising {m : Memory} (h : m.wf = true) : m.rising = true := ((wf_iff m).1 h).1

theorem mem_cellsWrite {a : Nat} {v : Byte} {m : Memory} {c : Host.Cell} (h : c ∈ cellsWrite a v m) :
    c ∈ m ∨ (c = (a, v) ∧ v ≠ Memory.unlisted) := by
  induction m with
  | nil => simp only [cellsWrite] at h; split at h <;> simp_all
  | cons x r ih =>
    obtain ⟨k, w⟩ := x
    simp only [cellsWrite] at h
    split at h
    · rcases List.mem_cons.1 h with rfl | h
      · simp
      · rcases ih h with h | h
        · simp [h]
        · exact .inr h
    · split at h
      · split at h
        · simp [h]
        · rcases List.mem_cons.1 h with rfl | h <;> simp_all
      · split at h
        · exact .inl h
        · rcases List.mem_cons.1 h with rfl | h <;> simp_all

theorem rising_cellsWrite (a : Nat) (v : Byte) (m : Memory) (hm : m.rising = true) :
    (cellsWrite a v m).rising = true := by
  induction m with
  | nil => simp only [cellsWrite]; split <;> rfl
  | cons x r ih =>
    obtain ⟨k, w⟩ := x
    have habove := rising_above hm
    have htail := rising_tail hm
    simp only [cellsWrite]
    split
    · refine rising_cons (ih htail) ?_
      intro c hc
      rcases mem_cellsWrite hc with hc | ⟨rfl, -⟩
      · exact habove c hc
      · assumption
    · split
      · split
        · exact htail
        · subst_vars; exact rising_cons htail habove
      · split
        · exact hm
        · refine rising_cons hm ?_
          intro c hc
          rcases List.mem_cons.1 hc with rfl | hc
          · show a < k; omega
          · have := habove c hc; simp only at this; show a < c.1; omega

/-- Every DEVBUF write keeps the canonical form. -/
theorem wf_memWrite (m : Memory) (i : Fin Config.bufLen) (v : Byte) (hm : m.wf = true) :
    (memWrite m i v).wf = true := by
  rw [wf_iff] at hm ⊢
  refine ⟨rising_cellsWrite _ _ _ hm.1, ?_⟩
  intro c hc
  rcases mem_cellsWrite hc with hc | ⟨rfl, hv⟩
  · exact hm.2 c hc
  · exact ⟨i.isLt, hv⟩

/-- Read after write, over DEVBUF's own indices. -/
theorem memRead_memWrite (m : Memory) (i j : Fin Config.bufLen) (v : Byte) (hm : m.wf = true) :
    memRead (memWrite m i v) j = if j = i then v else memRead m j := by
  unfold memRead memWrite
  rw [cellsRead_cellsWrite _ _ _ _ (wf_rising hm)]
  simp [Fin.ext_iff]

theorem length_bufferBytes (m : Memory) : (bufferBytes m).length = Config.bufLen := by
  simp [bufferBytes]

/-- Two canonical memories that read alike are equal. -/
theorem wf_ext {m n : Memory} (hm : m.wf = true) (hn : n.wf = true)
    (h : ∀ a, cellsRead a m = cellsRead a n) : m = n := by
  induction m generalizing n with
  | nil =>
    cases n with
    | nil => rfl
    | cons y r =>
      have := h y.1
      have hy := ((wf_iff _).1 hn).2 y (by simp)
      obtain ⟨k, w⟩ := y
      simp [cellsRead] at this hy
      exact absurd this.symm hy.2
  | cons x r ih =>
    obtain ⟨k, w⟩ := x
    have hmf := (wf_iff _).1 hm
    have hx := hmf.2 (k, w) (by simp)
    cases n with
    | nil =>
      have := h k
      simp [cellsRead] at this hx
      exact absurd this hx.2
    | cons y r' =>
      obtain ⟨k', w'⟩ := y
      have hnf := (wf_iff _).1 hn
      have hy := hnf.2 (k', w') (by simp)
      have ha := rising_above hmf.1
      have ha' := rising_above hnf.1
      simp only at ha ha' hx hy
      have hk : k = k' := by
        rcases Nat.lt_trichotomy k k' with hlt | heq | hgt
        · have h1 := h k
          rw [cellsRead_below (m := (k', w') :: r')] at h1
          · simp [cellsRead] at h1; exact absurd h1 hx.2
          · intro c hc
            rcases List.mem_cons.1 hc with rfl | hc
            · exact hlt
            · have := ha' c hc; omega
        · exact heq
        · have h1 := h k'
          rw [cellsRead_below (m := (k, w) :: r)] at h1
          · simp [cellsRead] at h1; exact absurd h1.symm hy.2
          · intro c hc
            rcases List.mem_cons.1 hc with rfl | hc
            · exact hgt
            · have := ha c hc; omega
      subst hk
      have hw : w = w' := by have := h k; simpa [cellsRead] using this
      subst hw
      congr 1
      refine ih ((wf_iff _).2 ⟨rising_tail hmf.1, fun c hc => hmf.2 c (by simp [hc])⟩)
        ((wf_iff _).2 ⟨rising_tail hnf.1, fun c hc => hnf.2 c (by simp [hc])⟩) ?_
      intro a
      by_cases hka : k = a
      · subst hka; rw [cellsRead_below ha, cellsRead_below ha']
      · have := h a; simpa [cellsRead, hka] using this

/-- DEVBUF is in canonical form at power-up. -/
theorem wf_reset : State.reset.devbuf.wf = true := rfl

end Sys2Proof.Machine
end

