-- ==== Sys2Proof/Laws/Port.lean ====
section
/-! SUPPORT. What the port operations can do: framing of traces, the frame of a write, a frame and a poll, and their
results when the queued answers accept every write. -/

namespace Sys2Proof.Machine

/-! ## Framed traces -/

/-- The last two events of a context followed by `evs`. -/
def contextAfter (before last : Option PortEvent) : List PortEvent → Option PortEvent × Option PortEvent
  | [] => (before, last)
  | e :: rest => contextAfter last (some e) rest

theorem framedAfter_append (b l : Option PortEvent) (xs ys : List PortEvent) :
    framedAfter b l (xs ++ ys) =
      (framedAfter b l xs && framedAfter (contextAfter b l xs).1 (contextAfter b l xs).2 ys) := by
  induction xs generalizing b l with
  | nil => simp [framedAfter, contextAfter]
  | cons x xs ih => simp [framedAfter, contextAfter, ih, Bool.and_assoc]

theorem eventFramed_none {b : Option PortEvent} {e : PortEvent} (h : eventFramed b none e = true)
    (b' l' : Option PortEvent) : eventFramed b' l' e = true := by
  cases e <;> simp_all [eventFramed]

theorem eventFramed_before {l : Option PortEvent} {e : PortEvent} (h : eventFramed none l e = true)
    (b' : Option PortEvent) : eventFramed b' l e = true := by
  cases e <;> simp_all [eventFramed]

/-- Events framed by themselves are framed after anything. -/
theorem framedAfter_of_alone {xs : List PortEvent} (h : framedAfter none none xs = true)
    (b l : Option PortEvent) : framedAfter b l xs = true := by
  cases xs with
  | nil => rfl
  | cons x xs =>
    simp only [framedAfter, Bool.and_eq_true] at h ⊢
    refine ⟨eventFramed_none h.1 b l, ?_⟩
    cases xs with
    | nil => rfl
    | cons y ys =>
      simp only [framedAfter, Bool.and_eq_true] at h ⊢
      exact ⟨eventFramed_before h.2.1 l, h.2.2⟩

/-- Two traces framed by themselves make one. -/
theorem framed_append {xs ys : List PortEvent} (hx : framedAfter none none xs = true)
    (hy : framedAfter none none ys = true) : framedAfter none none (xs ++ ys) = true := by
  rw [framedAfter_append, hx, framedAfter_of_alone hy]; rfl

/-! ## The frame of a port operation -/

/-- From `s` to `t` only the DC latch, the platform and the trace may have changed, the trace by framed events. -/
structure PortStep (s t : State) : Prop where
  panel     : t.panel = s.panel
  fault     : t.fault = s.fault
  status    : t.status = s.status
  reset     : t.latches.reset = s.latches.reset
  power     : t.latches.power = s.latches.power
  devbuf    : t.devbuf = s.devbuf
  deadline  : t.deadline = s.deadline
  seq       : t.seq = s.seq
  requests  : t.requests = s.requests
  responses : t.responses = s.responses
  params    : t.params = s.params
  trace     : ∃ evs, t.trace = s.trace ++ evs ∧ framedAfter none none evs = true

theorem PortStep.refl (s : State) : PortStep s s :=
  ⟨rfl, rfl, rfl, rfl, rfl, rfl, rfl, rfl, rfl, rfl, rfl, [], by simp, rfl⟩

theorem PortStep.trans {s t u : State} (h : PortStep s t) (g : PortStep t u) : PortStep s u := by
  obtain ⟨xs, hx, fx⟩ := h.trace
  obtain ⟨ys, hy, fy⟩ := g.trace
  exact ⟨g.panel.trans h.panel, g.fault.trans h.fault, g.status.trans h.status, g.reset.trans h.reset,
    g.power.trans h.power, g.devbuf.trans h.devbuf, g.deadline.trans h.deadline, g.seq.trans h.seq,
    g.requests.trans h.requests, g.responses.trans h.responses, g.params.trans h.params,
    xs ++ ys, by rw [hy, hx, List.append_assoc], framed_append fx fy⟩

/-- The state of a write's result. -/
def PortResult.state : PortResult → State
  | .ok s => s
  | .fault s => s

/-- The state of a poll's result. -/
def PollResult.state : PollResult → State
  | .answered _ s => s
  | .fault s => s

/-- A write appends one event and takes one answer; which result it has is the answer's. -/
theorem spiWrite_cases (bytes : List Byte) (s : State) :
    (spiSuccess (nextSpi s).1 bytes.length = true ∧
      spiWrite bytes s = .ok (emit (.spiWrite bytes .ok) (nextSpi s).2)) ∨
    (spiSuccess (nextSpi s).1 bytes.length = false ∧
      spiWrite bytes s = .fault (spiFail bytes (nextSpi s).2)) := by
  unfold spiWrite
  cases h : spiSuccess (nextSpi s).1 bytes.length
  · exact .inr ⟨rfl, by simp⟩
  · exact .inl ⟨rfl, by simp⟩

/-- Taking an SPI answer, queued or free, changes only the platform, whose queue loses its head. -/
theorem nextSpi_shape (s : State) :
    ∃ p, p.spi = s.platform.spi.tail ∧ (nextSpi s).2 = { s with platform := p } := by
  unfold nextSpi
  split <;> rename_i h <;> exact ⟨_, by simp [h], rfl⟩

/-- A failed write changes only the trace, by an event that says a prefix was delivered, and the platform, which keeps
its SPI answers. -/
theorem spiFail_shape (bytes : List Byte) (s : State) :
    ∃ n p, n ≤ bytes.length ∧ p.spi = s.platform.spi ∧
      spiFail bytes s = { s with trace := s.trace ++ [.spiWrite bytes (.err n)], platform := p } := by
  refine ⟨_, (nextDelivered bytes.length s).2.platform, nextDelivered_le _ s, ?_, ?_⟩
  · unfold nextDelivered; split <;> rfl
  · unfold spiFail emit nextDelivered; split <;> rfl

/-- A frame after the setting of DC. -/
theorem portStep_write (l : Level) (bytes : List Byte) (s : State)
    (h : l = .low ∧ bytes.length = 1 ∨ l = .high ∧ bytes ≠ []) :
    PortStep s (spiWrite bytes (setPin .dc l s)).state := by
  have hf (r : WriteResult) : framedAfter none none [.setPin .dc l, .spiWrite bytes r] = true := by
    rcases h with ⟨rfl, h⟩ | ⟨rfl, h⟩ <;> simp [framedAfter, eventFramed, h]
  rcases spiWrite_cases bytes (setPin .dc l s) with ⟨-, h1⟩ | ⟨-, h1⟩ <;> rw [h1]
  · exact ⟨by simp [PortResult.state], by simp [PortResult.state], by simp [PortResult.state],
      by simp [PortResult.state], by simp [PortResult.state], by simp [PortResult.state],
      by simp [PortResult.state], by simp [PortResult.state], by simp [PortResult.state],
      by simp [PortResult.state], by simp [PortResult.state], _, by simp [PortResult.state], hf .ok⟩
  · exact ⟨by simp [PortResult.state], by simp [PortResult.state], by simp [PortResult.state],
      by simp [PortResult.state], by simp [PortResult.state], by simp [PortResult.state],
      by simp [PortResult.state], by simp [PortResult.state], by simp [PortResult.state],
      by simp [PortResult.state], by simp [PortResult.state],
      [.setPin .dc l, .spiWrite bytes (.err (nextDelivered bytes.length (nextSpi (setPin .dc l s)).2).1)],
      by simp [PortResult.state], hf _⟩

theorem portStep_sendCmd (c : Byte) (s : State) : PortStep s (sendCmd c s).state :=
  portStep_write _ _ _ (.inl ⟨rfl, rfl⟩)

theorem portStep_sendData (p : List Byte) (s : State) : PortStep s (sendData p s).state := by
  cases p with
  | nil => exact PortStep.refl s
  | cons b rest => exact portStep_write _ _ _ (.inr ⟨rfl, by simp⟩)

theorem portStep_sendCmdData (c : Byte) (p : List Byte) (s : State) :
    PortStep s (sendCmdData c p s).state := by
  have h1 := portStep_sendCmd c s
  unfold sendCmdData
  cases hc : sendCmd c s with
  | ok s' => rw [hc] at h1; exact h1.trans (portStep_sendData p s')
  | fault s' => rw [hc] at h1; exact h1

/-- A busy query with the read that follows it. -/
theorem portStep_poll (s : State) : PortStep s (poll s).state := by
  have h1 := portStep_sendCmd 0x71 s
  unfold poll
  rcases spiWrite_cases [(0x71 : Byte)] (setPin .dc .low s) with ⟨-, h⟩ | ⟨-, h⟩
  · simp only [sendCmd, h, PollResult.state] at h1 ⊢
    refine ⟨by simp, by simp, by simp, by simp, by simp, by simp, by simp, by simp, by simp, by simp, by simp,
      [.setPin .dc .low, .spiWrite [0x71] .ok, .readBusy _], by simp; rfl, by simp [framedAfter, eventFramed]⟩
  · simp only [sendCmd, h, PollResult.state, PortResult.state] at h1 ⊢
    exact h1

theorem portStep_sleepFor (ms : Nat) (s : State) : PortStep s (sleepFor ms s) :=
  ⟨rfl, rfl, rfl, rfl, rfl, rfl, rfl, rfl, rfl, rfl, rfl, [.sleep ms], rfl, rfl⟩

theorem portStep_readClock (s : State) : PortStep s (readClock s).2 :=
  ⟨by simp, by simp, by simp, by simp, by simp, by simp, by simp, by simp, by simp, by simp, by simp,
    [.now _], by simp; rfl, rfl⟩

/-! ## The reference buffer -/

@[simp] theorem bufferBytes_length (m : Memory) : (bufferBytes m).length = 1280 := by
  rw [bufferBytes, List.length_map, List.length_finRange]

@[simp] theorem referenceBytes_length (mode : RefMode) (m : Memory) : (referenceBytes mode m).length = 1280 := by
  cases mode
  · exact List.length_replicate
  · rw [referenceBytes, List.length_map, List.length_finRange]

/-- What DISPLAY computes from the packed bytes is R145's buffer, byte by byte. -/
theorem refBuffer_bufferBytes (mode : RefMode) (m : Memory) :
    refBuffer mode (bufferBytes m) = referenceBytes mode m := by
  cases mode
  · rfl
  · simp only [refBuffer, bufferBytes, referenceBytes, List.map_map]; rfl

/-! ## Results when the queued answers accept the writes -/

/-- `s` after the events `evs` and with `more` SPI answers left, DC at `dc`. -/
def afterWrites (s : State) (evs : List PortEvent) (dc : Level) (more : List SpiAnswer) : State :=
  { s with trace := s.trace ++ evs, latches := { s.latches with dc := dc },
           platform := { s.platform with spi := more } }

theorem spiWrite_accepted {bytes : List Byte} {s : State} {a : SpiAnswer} {more : List SpiAnswer}
    (hq : s.platform.spi = a :: more) (ha : spiSuccess a bytes.length = true) :
    spiWrite bytes s =
      .ok { s with trace := s.trace ++ [.spiWrite bytes .ok], platform := { s.platform with spi := more } } := by
  unfold spiWrite nextSpi
  rw [hq]
  simp [ha, emit]

theorem writesAccepted_cons {bytes : List Byte} {r : WriteResult} {evs : List PortEvent}
    {q more : List SpiAnswer} (h : writesAccepted (.spiWrite bytes r :: evs) q = some more) :
    ∃ a q', q = a :: q' ∧ spiSuccess a bytes.length = true ∧ writesAccepted evs q' = some more := by
  cases q with
  | nil => simp [writesAccepted] at h
  | cons a q' =>
    simp only [writesAccepted] at h
    split at h
    · exact ⟨a, q', rfl, ‹_›, h⟩
    · cases h

/-- A command with its data, when the answers accept its frames. -/
theorem sendCmdData_accepted {c : Byte} {p : List Byte} {evs : List PortEvent} {s : State}
    {more : List SpiAnswer} (h : writesAccepted (frameEvents c p ++ evs) s.platform.spi = some more) :
    ∃ q, sendCmdData c p s = .ok (afterWrites s (frameEvents c p) (dcAfter p) q) ∧
      writesAccepted evs q = some more := by
  simp only [frameEvents, cmdEvents, List.cons_append, List.nil_append, writesAccepted] at h
  obtain ⟨a, q1, hq, ha, h⟩ := writesAccepted_cons h
  have h1 : sendCmd c s = .ok (afterWrites s (cmdEvents c) .low q1) := by
    unfold sendCmd
    rw [spiWrite_accepted (s := setPin .dc .low s) hq ha]
    simp [setPin, emit, afterWrites, cmdEvents, Latches.set]
  cases p with
  | nil =>
    refine ⟨q1, ?_, by simpa [dataEvents] using h⟩
    simp [sendCmdData, h1, PortResult.andThen, sendData, frameEvents, dataEvents, dcAfter]
  | cons b rest =>
    simp only [dataEvents, List.cons_append, List.nil_append, writesAccepted] at h
    obtain ⟨a', q2, hq', ha', h⟩ := writesAccepted_cons h
    refine ⟨q2, ?_, h⟩
    simp only [sendCmdData, h1, PortResult.andThen, sendData, List.isEmpty_cons, Bool.false_eq_true, if_false]
    rw [spiWrite_accepted (s := setPin .dc .high _) (a := a') (more := q2) (by simpa [afterWrites] using hq') ha']
    simp [setPin, emit, afterWrites, cmdEvents, dataEvents, frameEvents, dcAfter, Latches.set]

/-- A busy query that goes through, with its queued level. -/
theorem poll_accepted {l : Level} {evs : List PortEvent} {s : State} {more : List SpiAnswer} {levels : List Level}
    (h : writesAccepted (pollEvents l ++ evs) s.platform.spi = some more) (hb : s.platform.busy = l :: levels) :
    ∃ q, poll s = .answered l
        { afterWrites s (pollEvents l) .low q with platform := { s.platform with spi := q, busy := levels } } ∧
      writesAccepted evs q = some more := by
  simp only [pollEvents, cmdEvents, List.cons_append, List.nil_append, writesAccepted] at h
  obtain ⟨a, q, hq, ha, h⟩ := writesAccepted_cons h
  refine ⟨q, ?_, by simpa [writesAccepted] using h⟩
  unfold poll sendCmd
  rw [spiWrite_accepted (s := setPin .dc .low s) hq ha]
  simp [readBusy, nextBusy, hb, setPin, emit, afterWrites, pollEvents, cmdEvents, Latches.set]

end Sys2Proof.Machine
end

