-- ==== Sys2Proof/Laws/Sequencer.lean ====
section
/-! SUPPORT. What running pseudocode can do: the frame of any list of lines, the three ways each wait goes, and the run
of a script of frames. -/

namespace Sys2Proof.Machine

/-! ## The frame of any lines -/

/-- From `s` to `t` DEVBUF, the host port and the parameters are unchanged, and the trace has grown by framed
events. -/
structure LineStep (s t : State) : Prop where
  devbuf   : t.devbuf = s.devbuf
  requests : t.requests = s.requests
  params   : t.params = s.params
  trace    : ∃ evs, t.trace = s.trace ++ evs ∧ framedAfter none none evs = true

theorem LineStep.refl (s : State) : LineStep s s := ⟨rfl, rfl, rfl, [], by simp, rfl⟩

theorem LineStep.trans {s t u : State} (h : LineStep s t) (g : LineStep t u) : LineStep s u := by
  obtain ⟨xs, hx, fx⟩ := h.trace
  obtain ⟨ys, hy, fy⟩ := g.trace
  exact ⟨g.devbuf.trans h.devbuf, g.requests.trans h.requests, g.params.trans h.params,
    xs ++ ys, by rw [hy, hx, List.append_assoc], framed_append fx fy⟩

theorem PortStep.line {s t : State} (h : PortStep s t) : LineStep s t :=
  ⟨h.devbuf, h.requests, h.params, h.trace⟩

/-- A change of fields the frame does not speak of. -/
theorem LineStep.of_fields {s t : State} (hd : t.devbuf = s.devbuf) (hr : t.requests = s.requests)
    (hp : t.params = s.params) (ht : t.trace = s.trace) : LineStep s t :=
  ⟨hd, hr, hp, [], by simp [ht], rfl⟩

/-- The state a line leaves. -/
def OpResult.state : OpResult → State
  | .done s => s
  | .wait _ s => s
  | .raise _ s => s

theorem lineStep_runOp (op : SeqOp) (s : State) : LineStep s (runOp op s).state := by
  have hp := (portStep_poll s).line
  cases op with
  | enter p => exact .of_fields rfl rfl rfl rfl
  | setPin p l => exact ⟨rfl, rfl, rfl, [.setPin p l], rfl, rfl⟩
  | sleep ms => exact ⟨rfl, rfl, rfl, [.sleep ms], rfl, rfl⟩
  | send c p =>
    have h := (portStep_sendCmdData c p s).line
    simp only [runOp, runSend]
    cases hc : sendCmdData c p s <;> rw [hc] at h <;> exact h
  | awaitBusy =>
    simp only [runOp, runAwaitBusy]
    cases hc : poll s with
    | fault s' => rw [hc] at hp; exact hp
    | answered l s' => rw [hc] at hp; cases l <;> exact hp
  | awaitTimed d =>
    simp only [runOp, runAwaitTimed]
    cases hc : poll s with
    | fault s' => rw [hc] at hp; exact hp
    | answered l s' =>
      rw [hc] at hp
      have hn := (portStep_readClock s').line
      cases l with
      | high => exact hp
      | low => exact hp.trans ⟨hn.devbuf, hn.requests, hn.params, hn.trace⟩
  | pollTimed =>
    simp only [runOp, runPollTimed]
    cases hc : poll s with
    | fault s' => rw [hc] at hp; exact hp
    | answered l s' =>
      rw [hc] at hp
      cases l with
      | high => exact hp
      | low =>
        simp only
        split <;> exact hp.trans (portStep_readClock s').line
  | finish p => exact .of_fields rfl rfl rfl rfl

theorem lineStep_raiseError (k : Option RequestKind) (e : Status) (s : State) :
    LineStep s (raiseError k e s) := by
  cases e <;> exact .of_fields rfl rfl rfl rfl

/-- Whatever lines a request runs, they leave DEVBUF, the host port and the parameters alone. -/
theorem lineStep_runOps (k : RequestKind) (ops : List SeqOp) (s : State) :
    LineStep s (runOps k ops s) := by
  induction ops generalizing s with
  | nil => exact .of_fields rfl rfl rfl rfl
  | cons op rest ih =>
    have h := lineStep_runOp op s
    simp only [runOps]
    cases hr : runOp op s with
    | done s' => rw [hr] at h; exact h.trans (ih s')
    | wait again s' => rw [hr] at h; exact h.trans (.of_fields rfl rfl rfl rfl)
    | raise e s' => rw [hr] at h; exact h.trans (lineStep_raiseError _ _ _)

/-! ## Fields after accepted writes -/

@[simp] theorem afterWrites_panel (s : State) (evs : List PortEvent) (dc : Level) (q : List SpiAnswer) :
    (afterWrites s evs dc q).panel = s.panel := rfl
@[simp] theorem afterWrites_fault (s : State) (evs : List PortEvent) (dc : Level) (q : List SpiAnswer) :
    (afterWrites s evs dc q).fault = s.fault := rfl
@[simp] theorem afterWrites_status (s : State) (evs : List PortEvent) (dc : Level) (q : List SpiAnswer) :
    (afterWrites s evs dc q).status = s.status := rfl
@[simp] theorem afterWrites_devbuf (s : State) (evs : List PortEvent) (dc : Level) (q : List SpiAnswer) :
    (afterWrites s evs dc q).devbuf = s.devbuf := rfl
@[simp] theorem afterWrites_deadline (s : State) (evs : List PortEvent) (dc : Level) (q : List SpiAnswer) :
    (afterWrites s evs dc q).deadline = s.deadline := rfl
@[simp] theorem afterWrites_seq (s : State) (evs : List PortEvent) (dc : Level) (q : List SpiAnswer) :
    (afterWrites s evs dc q).seq = s.seq := rfl
@[simp] theorem afterWrites_requests (s : State) (evs : List PortEvent) (dc : Level) (q : List SpiAnswer) :
    (afterWrites s evs dc q).requests = s.requests := rfl
@[simp] theorem afterWrites_responses (s : State) (evs : List PortEvent) (dc : Level) (q : List SpiAnswer) :
    (afterWrites s evs dc q).responses = s.responses := rfl
@[simp] theorem afterWrites_params (s : State) (evs : List PortEvent) (dc : Level) (q : List SpiAnswer) :
    (afterWrites s evs dc q).params = s.params := rfl
@[simp] theorem afterWrites_trace (s : State) (evs : List PortEvent) (dc : Level) (q : List SpiAnswer) :
    (afterWrites s evs dc q).trace = s.trace ++ evs := rfl
@[simp] theorem afterWrites_latches (s : State) (evs : List PortEvent) (dc : Level) (q : List SpiAnswer) :
    (afterWrites s evs dc q).latches = { s.latches with dc := dc } := rfl
@[simp] theorem afterWrites_platform (s : State) (evs : List PortEvent) (dc : Level) (q : List SpiAnswer) :
    (afterWrites s evs dc q).platform = { s.platform with spi := q } := rfl

/-! ## Scripts of frames -/

/-- A command line goes through, or its failed write ends the request. -/
theorem runOps_send (k : RequestKind) (c : Byte) (p : List Byte) (rest : List SeqOp) (s : State) :
    ∃ t, PortStep s t ∧
      (runOps k (.send c p :: rest) s = runOps k rest t ∨
       runOps k (.send c p :: rest) s = raiseError (some k) .transportFault t) := by
  have h := portStep_sendCmdData c p s
  refine ⟨_, h, ?_⟩
  simp only [runOps, runOp, runSend]
  cases hc : sendCmdData c p s <;> simp [PortResult.state]

/-- A script goes through, or a failed write in it ends the request. -/
theorem runOps_script (k : RequestKind) (sc : Script) (rest : List SeqOp) (s : State) :
    ∃ t, PortStep s t ∧
      (runOps k (sendScript sc ++ rest) s = runOps k rest t ∨
       runOps k (sendScript sc ++ rest) s = raiseError (some k) .transportFault t) := by
  induction sc generalizing s with
  | nil => exact ⟨s, .refl s, .inl rfl⟩
  | cons e sc ih =>
    obtain ⟨t, ht, h⟩ := runOps_send k e.1 e.2 (sendScript sc ++ rest) s
    simp only [sendScript, List.map_cons, List.cons_append] at h ih ⊢
    rcases h with h | h
    · obtain ⟨u, hu, g⟩ := ih t
      rw [h]
      exact ⟨u, ht.trans hu, g⟩
    · exact ⟨t, ht, .inr h⟩

/-- A command line whose frames the queued answers accept. -/
theorem runOps_send_accepted {k : RequestKind} {c : Byte} {p : List Byte} {evs : List PortEvent}
    {rest : List SeqOp} {s : State} {more : List SpiAnswer}
    (h : writesAccepted (frameEvents c p ++ evs) s.platform.spi = some more) :
    ∃ q, runOps k (.send c p :: rest) s = runOps k rest (afterWrites s (frameEvents c p) (dcAfter p) q) ∧
      writesAccepted evs q = some more := by
  obtain ⟨q, h1, h2⟩ := sendCmdData_accepted h
  exact ⟨q, by simp [runOps, runOp, runSend, h1], h2⟩

theorem afterWrites_twice (s : State) (xs ys : List PortEvent) (d d' : Level) (q q' : List SpiAnswer) :
    afterWrites (afterWrites s xs d q) ys d' q' = afterWrites s (xs ++ ys) d' q' := by
  simp [afterWrites]

/-- A script whose frames the queued answers accept. -/
theorem runOps_script_accepted {k : RequestKind} (sc : Script) {evs : List PortEvent}
    {rest : List SeqOp} {s : State} {more : List SpiAnswer}
    (h : writesAccepted (scriptEvents sc ++ evs) s.platform.spi = some more) :
    ∃ q dc, runOps k (sendScript sc ++ rest) s = runOps k rest (afterWrites s (scriptEvents sc) dc q) ∧
      writesAccepted evs q = some more := by
  induction sc generalizing s with
  | nil =>
    refine ⟨s.platform.spi, s.latches.dc, ?_, by simpa [scriptEvents] using h⟩
    simp [sendScript, scriptEvents, afterWrites]
  | cons e sc ih =>
    simp only [scriptEvents, List.flatMap_cons, List.append_assoc] at h
    obtain ⟨q, h1, h2⟩ := runOps_send_accepted (k := k) (rest := sendScript sc ++ rest) h
    obtain ⟨q', dc, h3, h4⟩ := ih (s := afterWrites s (frameEvents e.1 e.2) (dcAfter e.2) q) h2
    refine ⟨q', dc, ?_, h4⟩
    rw [show sendScript (e :: sc) ++ rest = .send e.1 e.2 :: (sendScript sc ++ rest) from rfl, h1, h3,
      afterWrites_twice]
    rfl

/-! ## The busy waits -/

/-- An unbounded wait at the head of the lines goes on, waits, or ends the request by a fault. -/
theorem runOps_awaitBusy (k : RequestKind) (rest : List SeqOp) (s : State) :
    ∃ t, PortStep s t ∧
      (runOps k (.awaitBusy :: rest) s = runOps k rest t ∨
       runOps k (.awaitBusy :: rest) s =
         { t with seq := some { request := k, rest := .sleep tPoll :: .awaitBusy :: rest } } ∨
       runOps k (.awaitBusy :: rest) s = raiseError (some k) .transportFault t) := by
  have h := portStep_poll s
  refine ⟨_, h, ?_⟩
  simp only [runOps, runOp, runAwaitBusy]
  cases hc : poll s with
  | fault s' => simp [PollResult.state]
  | answered l s' => cases l <;> simp [PollResult.state]

/-- A later poll of a timed wait goes on, waits, times out, or ends the request by a fault. -/
theorem runOps_pollTimed (k : RequestKind) (rest : List SeqOp) (s : State) :
    ∃ t, PortStep s t ∧
      (runOps k (.pollTimed :: rest) s = runOps k rest t ∨
       runOps k (.pollTimed :: rest) s =
         { t with seq := some { request := k, rest := .sleep tPoll :: .pollTimed :: rest } } ∨
       runOps k (.pollTimed :: rest) s = raiseError (some k) .busyTimeout t ∨
       runOps k (.pollTimed :: rest) s = raiseError (some k) .transportFault t) := by
  have h := portStep_poll s
  simp only [runOps, runOp, runPollTimed]
  cases hc : poll s with
  | fault s' => rw [hc] at h; exact ⟨s', h, by simp⟩
  | answered l s' =>
    rw [hc] at h
    cases l with
    | high => exact ⟨s', h, by simp⟩
    | low =>
      refine ⟨_, h.trans (portStep_readClock s'), ?_⟩
      by_cases hlt : s'.deadline < (readClock s').1
      · simp only [hlt, if_true]; simp
      · simp only [hlt, if_false]; exact .inr (.inl rfl)

/-- The first poll of a timed wait goes on, waits with a deadline set, or ends the request by a fault. -/
theorem runOps_awaitTimed (k : RequestKind) (d : Nat) (rest : List SeqOp) (s : State) :
    ∃ t, PortStep s t ∧
      (runOps k (.awaitTimed d :: rest) s = runOps k rest t ∨
       (∃ dl, runOps k (.awaitTimed d :: rest) s =
         { t with deadline := dl, seq := some { request := k, rest := .sleep tPoll :: .pollTimed :: rest } }) ∨
       runOps k (.awaitTimed d :: rest) s = raiseError (some k) .transportFault t) := by
  have h := portStep_poll s
  simp only [runOps, runOp, runAwaitTimed]
  cases hc : poll s with
  | fault s' => rw [hc] at h; exact ⟨s', h, by simp⟩
  | answered l s' =>
    rw [hc] at h
    cases l with
    | high => exact ⟨s', h, by simp⟩
    | low =>
      refine ⟨_, h.trans (portStep_readClock s'), .inr (.inl ⟨(readClock s').1 + d, rfl⟩)⟩

/-! ## Single lines -/

@[simp] theorem runOps_nil (k : RequestKind) (s : State) : runOps k [] s = { s with seq := none } := rfl
@[simp] theorem runOps_enter (k : RequestKind) (p : PanelState) (rest : List SeqOp) (s : State) :
    runOps k (.enter p :: rest) s = runOps k rest { s with panel := p } := rfl
@[simp] theorem runOps_setPin (k : RequestKind) (p : OutPin) (l : Level) (rest : List SeqOp) (s : State) :
    runOps k (.setPin p l :: rest) s = runOps k rest (setPin p l s) := rfl
@[simp] theorem runOps_sleep (k : RequestKind) (ms : Nat) (rest : List SeqOp) (s : State) :
    runOps k (.sleep ms :: rest) s = runOps k rest (sleepFor ms s) := rfl
@[simp] theorem runOps_finish (k : RequestKind) (p : PanelState) (rest : List SeqOp) (s : State) :
    runOps k (.finish p :: rest) s = runOps k rest (writeStatus .ok { s with panel := p }) := rfl

/-! ## Waits whose query is accepted -/

/-- `s` after one accepted busy query that read `l`, with `q` and `levels` left. -/
def afterPoll (s : State) (l : Level) (q : List SpiAnswer) (levels : List Level) : State :=
  { afterWrites s (pollEvents l) .low q with platform := { s.platform with spi := q, busy := levels } }

@[simp] theorem afterPoll_panel (s : State) (l : Level) (q : List SpiAnswer) (levels : List Level) :
    (afterPoll s l q levels).panel = s.panel := rfl
@[simp] theorem afterPoll_fault (s : State) (l : Level) (q : List SpiAnswer) (levels : List Level) :
    (afterPoll s l q levels).fault = s.fault := rfl
@[simp] theorem afterPoll_status (s : State) (l : Level) (q : List SpiAnswer) (levels : List Level) :
    (afterPoll s l q levels).status = s.status := rfl
@[simp] theorem afterPoll_devbuf (s : State) (l : Level) (q : List SpiAnswer) (levels : List Level) :
    (afterPoll s l q levels).devbuf = s.devbuf := rfl
@[simp] theorem afterPoll_deadline (s : State) (l : Level) (q : List SpiAnswer) (levels : List Level) :
    (afterPoll s l q levels).deadline = s.deadline := rfl
@[simp] theorem afterPoll_seq (s : State) (l : Level) (q : List SpiAnswer) (levels : List Level) :
    (afterPoll s l q levels).seq = s.seq := rfl
@[simp] theorem afterPoll_requests (s : State) (l : Level) (q : List SpiAnswer) (levels : List Level) :
    (afterPoll s l q levels).requests = s.requests := rfl
@[simp] theorem afterPoll_responses (s : State) (l : Level) (q : List SpiAnswer) (levels : List Level) :
    (afterPoll s l q levels).responses = s.responses := rfl
@[simp] theorem afterPoll_params (s : State) (l : Level) (q : List SpiAnswer) (levels : List Level) :
    (afterPoll s l q levels).params = s.params := rfl
@[simp] theorem afterPoll_trace (s : State) (l : Level) (q : List SpiAnswer) (levels : List Level) :
    (afterPoll s l q levels).trace = s.trace ++ pollEvents l := rfl
@[simp] theorem afterPoll_latches (s : State) (l : Level) (q : List SpiAnswer) (levels : List Level) :
    (afterPoll s l q levels).latches = { s.latches with dc := .low } := rfl
@[simp] theorem afterPoll_platform (s : State) (l : Level) (q : List SpiAnswer) (levels : List Level) :
    (afterPoll s l q levels).platform = { s.platform with spi := q, busy := levels } := rfl

/-- An unbounded wait goes on at a High read. -/
theorem runOps_awaitBusy_high {k : RequestKind} {rest : List SeqOp} {evs : List PortEvent} {s : State}
    {more : List SpiAnswer} {levels : List Level}
    (h : writesAccepted (pollEvents .high ++ evs) s.platform.spi = some more)
    (hb : s.platform.busy = .high :: levels) :
    ∃ q, runOps k (.awaitBusy :: rest) s = runOps k rest (afterPoll s .high q levels) ∧
      writesAccepted evs q = some more := by
  obtain ⟨q, h1, h2⟩ := poll_accepted h hb
  exact ⟨q, by simp [runOps, runOp, runAwaitBusy, h1, afterPoll], h2⟩

/-- An unbounded wait stops at a Low read, with the pause and the loop left to do. -/
theorem runOps_awaitBusy_low {k : RequestKind} {rest : List SeqOp} {evs : List PortEvent} {s : State}
    {more : List SpiAnswer} {levels : List Level}
    (h : writesAccepted (pollEvents .low ++ evs) s.platform.spi = some more)
    (hb : s.platform.busy = .low :: levels) :
    ∃ q, runOps k (.awaitBusy :: rest) s =
        { afterPoll s .low q levels with
          seq := some { request := k, rest := .sleep tPoll :: .awaitBusy :: rest } } ∧
      writesAccepted evs q = some more := by
  obtain ⟨q, h1, h2⟩ := poll_accepted h hb
  exact ⟨q, by simp [runOps, runOp, runAwaitBusy, h1, afterPoll], h2⟩

end Sys2Proof.Machine
end

