-- ==== Sys2Proof/Laws/Pack.lean ====
section
/-! SUPPORT. The pack transform: it keeps the canonical form, and what one pixel does to each bit. -/

namespace Sys2Proof.Machine

/-- A fold of steps that keep the canonical form keeps it. -/
theorem wf_foldl {α : Type} (f : Memory → α → Memory) (hf : ∀ m a, m.wf = true → (f m a).wf = true)
    (l : List α) (m : Memory) (hm : m.wf = true) : (l.foldl f m).wf = true := by
  induction l generalizing m with
  | nil => exact hm
  | cons a l ih => exact ih _ (hf m a hm)

theorem wf_packPixel (img : Image) (y : Fin Config.height) (m : Memory) (x : Fin Config.width)
    (hm : m.wf = true) : (packPixel img y m x).wf = true := by
  unfold packPixel
  cases pixel img x.val y.val with
  | black => exact wf_memWrite _ _ _ hm
  | white => exact hm

theorem wf_packRow (img : Image) (m : Memory) (y : Fin Config.height) (hm : m.wf = true) :
    (packRow img m y).wf = true :=
  wf_foldl _ (fun m x h => wf_packPixel img y m x h) _ _ hm

theorem wf_packInit (m : Memory) (hm : m.wf = true) : (packInit m).wf = true :=
  wf_foldl _ (fun m i h => wf_memWrite m i _ h) _ _ hm

/-- Packing keeps the canonical form. -/
theorem wf_packPixels (img : Image) (m : Memory) (hm : m.wf = true) : (packPixels img m).wf = true :=
  wf_foldl _ (fun m y h => wf_packRow img m y h) _ _ (wf_packInit m hm)

theorem wf_packImage {img : Image} {m m' : Memory} (hm : m.wf = true) (h : packImage img m = some m') :
    m'.wf = true := by
  unfold packImage at h
  split at h
  · cases h; exact wf_packPixels img m hm
  · cases h

/-- The initialisation makes every byte 0xFF, whatever it held. -/
theorem memRead_packInit (m : Memory) (hm : m.wf = true) (i : Fin Config.bufLen) :
    memRead (packInit m) i = 0xFF := by
  have key : ∀ (l : List (Fin Config.bufLen)) (m : Memory), m.wf = true →
      memRead (l.foldl (fun m i => memWrite m i 0xFF) m) i = if i ∈ l then 0xFF else memRead m i := by
    intro l
    induction l with
    | nil => intro m _; simp
    | cons j l ih =>
      intro m hm
      rw [List.foldl_cons, ih _ (wf_memWrite _ _ _ hm), memRead_memWrite _ _ _ _ hm]
      by_cases h1 : i ∈ l <;> by_cases h2 : i = j <;> simp [h1, h2]
  rw [packInit, key _ _ hm, if_pos (List.mem_finRange i)]

/-- One pixel clears its own bit when it is BLACK and leaves every other bit alone. -/
theorem memRead_packPixel (img : Image) (y : Fin Config.height) (m : Memory) (x : Fin Config.width)
    (i : Fin Config.bufLen) (hm : m.wf = true) :
    memRead (packPixel img y m x) i =
      if pixel img x.val y.val = .black ∧ i = pixelIndex x y then memRead m i &&& ~~~(pixelMask y)
      else memRead m i := by
  unfold packPixel
  cases h : pixel img x.val y.val with
  | white => simp
  | black =>
    simp only [true_and, memRead_memWrite _ _ _ _ hm]
    by_cases hi : i = pixelIndex x y <;> simp [hi]

end Sys2Proof.Machine
end

