-- ==== Sys2Proof/Laws/PerInstr.lean ====
section
/-! SUPPORT. Statements about every instruction as a term, one lemma for each constructor. -/

/-- The encoder and the decoder agree on a well-formed instruction. -/
def Sys2Proof.Laws.RoundTrip.Statement (i : Sys2Proof.Instr) : Prop :=
  i.WellFormed → Sys2Proof.decode (Sys2Proof.encode i) = some i

namespace Sys2Proof.Laws.RoundTrip

theorem getLsbD_requestWord (tmo : BitVec 32) (op : BitVec 8) (i : Nat) :
    (requestWord tmo op).getLsbD i = if i < 8 then op.getLsbD i else tmo.getLsbD (i - 8) :=
  (BitVec.getLsbD_append (x := tmo) (y := op)).trans (by split <;> simp_all)

/-- OP is bits [7:0] of the word (30_encoding.md R70). -/
@[simp] theorem opField_requestWord (tmo : BitVec 32) (op : BitVec 8) : opField (requestWord tmo op) = op := by
  apply BitVec.eq_of_getLsbD_eq
  intro i hi
  simp [opField, getLsbD_requestWord, hi]

/-- TMO is bits [39:8] of the word (30_encoding.md R70). -/
@[simp] theorem tmoField_requestWord (tmo : BitVec 32) (op : BitVec 8) : tmoField (requestWord tmo op) = tmo := by
  apply BitVec.eq_of_getLsbD_eq
  intro i hi
  simp [tmoField, getLsbD_requestWord, hi]

theorem new : Statement (.new) := by
  intro _; simp [encode, decode, decodeRequest]

theorem on : Statement (.on) := by
  intro _; simp [encode, decode, decodeRequest]

theorem display (img : Image) : Statement (.display img) := by
  intro _; simp [encode, decode, decodeRequest]

theorem clear : Statement (.clear) := by
  intro _; simp [encode, decode, decodeRequest]

theorem release : Statement (.release) := by
  intro _; simp [encode, decode, decodeRequest]

theorem awaitBusy : Statement (.awaitBusy) := by
  intro _; simp [encode, decode, decodeRequest]

theorem awaitBusyT (tmo : BitVec 32) : Statement (.awaitBusyT tmo) := by
  intro _; simp [encode, decode, decodeRequest]

theorem pack (img : Image) : Statement (.pack img) := by
  intro _; simp [encode, decode, decodeRequest]

theorem busyQuery : Statement .busyQuery := by
  intro _; rfl

theorem displayRefresh : Statement .displayRefresh := by
  intro _; rfl

theorem writeBuffer1 (data : List Byte) : Statement (.writeBuffer1 data) := by
  intro h; simpa [encode, decode, decodeCommand, Instr.WellFormed, Instr.wf] using h

theorem writeBuffer2 (data : List Byte) : Statement (.writeBuffer2 data) := by
  intro h; simpa [encode, decode, decodeCommand, Instr.WellFormed, Instr.wf] using h

theorem lutW (data : List Byte) : Statement (.lutW data) := by
  intro h; simpa [encode, decode, decodeCommand, Instr.WellFormed, Instr.wf] using h

theorem lutB (data : List Byte) : Statement (.lutB data) := by
  intro h; simpa [encode, decode, decodeCommand, Instr.WellFormed, Instr.wf] using h

theorem powerSetting (data : List Byte) : Statement (.powerSetting data) := by
  intro _; rfl

theorem chargePump (data : List Byte) : Statement (.chargePump data) := by
  intro _; rfl

theorem lutOption (data : List Byte) : Statement (.lutOption data) := by
  intro _; rfl

theorem clockFrequency (data : List Byte) : Statement (.clockFrequency data) := by
  intro _; rfl

theorem vcomInterval (data : List Byte) : Statement (.vcomInterval data) := by
  intro _; rfl

theorem gateSourceTiming (data : List Byte) : Statement (.gateSourceTiming data) := by
  intro _; rfl

theorem resolution (data : List Byte) : Statement (.resolution data) := by
  intro _; rfl

theorem vcomDc (data : List Byte) : Statement (.vcomDc data) := by
  intro _; rfl

theorem powerSaving (data : List Byte) : Statement (.powerSaving data) := by
  intro _; rfl

theorem powerOn : Statement .powerOn := by
  intro _; rfl

theorem powerOff (data : List Byte) : Statement (.powerOff data) := by
  intro _; rfl

theorem deepSleep (data : List Byte) : Statement (.deepSleep data) := by
  intro _; rfl

end Sys2Proof.Laws.RoundTrip
end

