-- ==== Sys2Proof/Laws/Step.lean ====
section
/-! SUPPORT. What a step can do: the inversion of `fetch` and `step`, the shared shapes of the instructions' meanings,
and what each request's lines can come to. -/

namespace Sys2Proof.Machine

/-! ## Operands -/

theorem sizeMatches_iff (img : Image) : sizeMatches img = true ↔ img.w = 128 ∧ img.h = 80 := by
  simp only [sizeMatches, Bool.and_eq_true, beq_iff_eq, Config.width, Config.height]
  constructor
  · rintro ⟨h1, h2⟩; exact ⟨BitVec.eq_of_toNat_eq h1, BitVec.eq_of_toNat_eq h2⟩
  · rintro ⟨h1, h2⟩; rw [h1, h2]; decide

theorem packImage_sized {img : Image} (m : Memory) (hw : img.w = 128) (hh : img.h = 80) :
    packImage img m = some (packPixels img m) := by
  simp [packImage, (sizeMatches_iff img).2 ⟨hw, hh⟩]

/-! ## Bus commands -/

/-- Every bus command's meaning is the sending of its own code and data. -/
theorem exec_of_encode {i : Instr} {c : Byte} {p : List Byte} (h : encode i = .command c p) (s : State) :
    exec i s = .next (runBusCommand c p s) := by
  cases i <;> simp only [encode, Encoded.command.injEq, reduceCtorEq] at h <;> (obtain ⟨rfl, rfl⟩ := h; rfl)

theorem byte_of_toNat {c : Byte} {n : Nat} (h : c.toNat = n) : c = BitVec.ofNat 8 n := by
  apply BitVec.eq_of_toNat_eq
  have := c.isLt
  simp only [BitVec.toNat_ofNat]
  omega

/-- A decoded bus command sends the code and data it was decoded from. -/
theorem exec_of_decodeCommand {c : Byte} {p : List Byte} {i : Instr} (h : decodeCommand c p = some i) (s : State) :
    exec i s = .next (runBusCommand c p s) := by
  unfold decodeCommand at h
  split at h
  all_goals first | (cases h; done) | skip
  all_goals (rename_i hn; have hc := byte_of_toNat hn; subst hc)
  all_goals (try split at h)
  all_goals first | (cases h; done) | skip
  all_goals (injection h with h; subst h; first | rfl | (simp_all; rfl))

/-- A bus command goes through, changing what a port operation may, or ends the running request by a fault. -/
theorem runBusCommand_cases (c : Byte) (p : List Byte) (s : State) :
    ∃ t, PortStep s t ∧
      (runBusCommand c p s = t ∨
       runBusCommand c p s = raiseError (s.seq.map (fun pos => pos.request)) .transportFault t) := by
  have h := portStep_sendCmdData c p s
  refine ⟨_, h, ?_⟩
  unfold runBusCommand
  cases hc : sendCmdData c p s with
  | ok t => exact .inl rfl
  | fault t => rw [hc] at h; exact .inr (by rw [← h.seq]; rfl)

/-! ## Fetching and stepping -/

/-- While a request runs, a step runs the bus command at its head, or its lines. -/
theorem fetch_running {s : State} {pos : Position} (h : s.seq = some pos) :
    (∃ c p rest i, pos.rest = .send c p :: rest ∧ decodeCommand c p = some i ∧
      fetch s = .instr i { s with seq := some { pos with rest := rest } }) ∨
    fetch s = .resume pos.request pos.rest := by
  unfold fetch
  rw [h]
  simp only
  split
  · rename_i c p rest heq
    cases hd : decodeCommand c p with
    | none => exact .inr rfl
    | some i => exact .inl ⟨c, p, rest, i, heq, hd, rfl⟩
  · exact .inr rfl

/-- What a step does: nothing with nothing to do; the refusal of a reserved OP; the offered request; the running
request's next bus command, or its lines. -/
theorem step_cases (s : State) :
    (s.seq = none ∧ s.requests = [] ∧ step s = .next s) ∨
    (∃ r more, s.seq = none ∧ s.requests = r :: more ∧ decodeRequest r = none ∧
      step s = .next (writeStatus .invalidRequest { s with requests := more })) ∨
    (∃ r more i, s.seq = none ∧ s.requests = r :: more ∧ decodeRequest r = some i ∧
      step s = exec i { s with requests := more }) ∨
    (∃ pos c p rest, s.seq = some pos ∧ pos.rest = .send c p :: rest ∧
      step s = .next (runBusCommand c p { s with seq := some { pos with rest := rest } })) ∨
    (∃ pos, s.seq = some pos ∧ step s = .next (runOps pos.request pos.rest s)) := by
  cases hs : s.seq with
  | none =>
    cases hr : s.requests with
    | nil => exact .inl ⟨rfl, rfl, by simp [step, fetch, hs, hr]⟩
    | cons r more =>
      cases hd : decodeRequest r with
      | none => exact .inr (.inl ⟨r, more, rfl, rfl, hd, by simp [step, fetch, hs, hr, hd, raiseError]⟩)
      | some i => exact .inr (.inr (.inl ⟨r, more, i, rfl, rfl, hd, by simp [step, fetch, hs, hr, hd]⟩))
  | some pos =>
    rcases fetch_running hs with ⟨c, p, rest, i, h1, h2, h3⟩ | h
    · exact .inr (.inr (.inr (.inl ⟨pos, c, p, rest, rfl, h1, by
        rw [step, h3]; exact exec_of_decodeCommand h2 _⟩)))
    · exact .inr (.inr (.inr (.inr ⟨pos, rfl, by simp [step, h]⟩)))

/-! ## What a request's lines can come to -/

/-- A script and the unbounded wait after it go on, wait, or end the request by a fault. -/
theorem runOps_script_await (k : RequestKind) (sc : Script) (rest : List SeqOp) (s : State) :
    ∃ t, PortStep s t ∧
      (runOps k (sendScript sc ++ .awaitBusy :: rest) s = runOps k rest t ∨
       runOps k (sendScript sc ++ .awaitBusy :: rest) s =
         { t with seq := some { request := k, rest := .sleep tPoll :: .awaitBusy :: rest } } ∨
       runOps k (sendScript sc ++ .awaitBusy :: rest) s = raiseError (some k) .transportFault t) := by
  obtain ⟨t, ht, h⟩ := runOps_script k sc (.awaitBusy :: rest) s
  rcases h with h | h
  · obtain ⟨u, hu, g⟩ := runOps_awaitBusy k rest t
    rw [h]; exact ⟨u, ht.trans hu, g⟩
  · exact ⟨t, ht, .inr (.inr h)⟩

/-- The frames InitScript sends, as one script. -/
def initFrameScript (p : Params) : Script :=
  p.initSequence ++ [(0x23, p.lutFullW.toList), (0x24, p.lutFullB.toList), (0x04, [])]

theorem initScript_eq (p : Params) (rest : List SeqOp) :
    initScript p ++ rest = sendScript (initFrameScript p) ++ .awaitBusy :: rest := by
  simp [initScript, initFrameScript, sendScript]

theorem scriptEvents_init (p : Params) : scriptEvents (initFrameScript p) = initFrames p := by
  simp [initFrameScript, scriptEvents, initFrames, frameEvents, dataEvents]

/-- The two buffers, the refresh and its wait go on, wait, or end the request by a fault. -/
theorem runOps_refresh (k : RequestKind) (a b : List Byte) (s : State) :
    ∃ t, PortStep { s with panel := .busy } t ∧
      (runOps k ([.enter .busy, .send 0x10 a, .send 0x13 b] ++ turnOnDisplay ++ [.finish .idle]) s =
         runOps k [.finish .idle] t ∨
       runOps k ([.enter .busy, .send 0x10 a, .send 0x13 b] ++ turnOnDisplay ++ [.finish .idle]) s =
         { t with seq := some { request := k, rest := [.sleep tPoll, .awaitBusy, .finish .idle] } } ∨
       runOps k ([.enter .busy, .send 0x10 a, .send 0x13 b] ++ turnOnDisplay ++ [.finish .idle]) s =
         raiseError (some k) .transportFault t) := by
  have e : runOps k ([.enter .busy, .send 0x10 a, .send 0x13 b] ++ turnOnDisplay ++ [.finish .idle]) s =
      runOps k (sendScript [(0x10, a), (0x13, b), (0x12, [])] ++ [.sleep tRefresh, .awaitBusy, .finish .idle])
        { s with panel := .busy } := rfl
  rw [e]
  obtain ⟨t, ht, h⟩ := runOps_script k [(0x10, a), (0x13, b), (0x12, [])]
    [.sleep tRefresh, .awaitBusy, .finish .idle] { s with panel := .busy }
  rcases h with h | h
  · rw [h, runOps_sleep]
    obtain ⟨u, hu, g⟩ := runOps_awaitBusy k [.finish .idle] (sleepFor tRefresh t)
    exact ⟨u, (ht.trans (portStep_sleepFor _ _)).trans hu, g⟩
  · exact ⟨t, ht, .inr (.inr h)⟩

end Sys2Proof.Machine
end

