-- ==== Sys2Proof/Tests/Slice0.lean ====
section
/-! SUPPORT. Tests: the WellFormed smoke, words and bytes written out from the spec's encodings, vectors of
95_test_vectors.md, and a witness for the hypotheses of each statement. -/

namespace Sys2Proof.Tests

open Sys2Proof Sys2Proof.Machine

/-! ## Small states -/

/-- Parameters with short scripts and made-up payloads. -/
def params : Params where
  initSequence     := [(0x01, [0xAA]), (0xE3, [])]
  lutFullW         := Vector.replicate 42 0x11
  lutFullB         := Vector.replicate 42 0x22
  lutPartW         := Vector.replicate 42 0x33
  lutPartB         := Vector.replicate 42 0x44
  shutdownSequence := [(0x02, []), (0x07, [0xA5])]
  refMode          := .fill
  clearFill1       := 0x00
  clearFill2       := 0xFF
  pinMap           := { reset := 17, dc := 25, busy := 24, power := 18 }

/-- A platform that has given answers ready; a first failed write delivers one byte. -/
def platform (spi : List SpiAnswer) (busy : List Level) (clock : List Nat) : Platform :=
  { Platform.fresh with spi := spi, busy := busy, clock := clock, delivered := [1] }

/-- A state between requests, the panel powered. -/
def between (p : PanelState) (pl : Platform) : State :=
  { State.reset with panel := p, params := params, platform := pl,
                     latches := { reset := .high, dc := .high, power := .high } }

/-- A state in which the host offers a request. -/
def offering (s : State) (w : BitVec 40) (img : Image) : State :=
  { s with requests := [{ word := w, img := img }] }

/-- A state in which request `k` waits for BUSY. -/
def waiting (k : RequestKind) (p : PanelState) (pl : Platform) : State :=
  { between p pl with seq := some { request := k, rest := waitingLines k } }

/-- A state whose REF_MODE is `m`. -/
def withRefMode (m : RefMode) (s : State) : State := { s with params := { s.params with refMode := m } }

/-- A faulted state. -/
def faulted (s : State) : State := { s with fault := { f := true, cause := .transportFault } }

/-- `n` writes that go through. -/
def ok (n : Nat) : List SpiAnswer := List.replicate n .all

/-- A 128 × 80 image with one BLACK pixel. -/
def dot (x y : Nat) : Image := { w := 128, h := 80, blacks := 2 ^ (y * 128 + x) }

/-- A 128 × 80 image, all BLACK. -/
def allBlack : Image := { w := 128, h := 80, blacks := 2 ^ 10240 - 1 }

/-- The image of V12: BLACK where x and y are below 8. -/
def block : Image :=
  { w := 128, h := 80, blacks := ((List.range 8).map (fun y => 0xFF * 2 ^ (y * 128))).sum }

/-- The state an outcome goes on in. -/
def after (o : Host.Outcome State Fault Refusal) : Option State :=
  match o with
  | .next t => some t
  | .fault _ => none
  | .refused _ => none

/-- A property of the state an outcome goes on in. -/
def goesOnIn (o : Host.Outcome State Fault Refusal) (q : State → Bool) : Bool :=
  match after o with
  | some t => q t
  | none => false

/-! ## WellFormed: each check refuses an ill-formed term (R80, R188 to R191) -/

theorem test_wf_writeBuffer1 : (Instr.writeBuffer1 (fill 0 3)).wf = false := by decide
theorem test_wf_writeBuffer2 : (Instr.writeBuffer2 (fill 0 3)).wf = false := by decide
theorem test_wf_lutW : (Instr.lutW (fill 0 41)).wf = false := by decide
theorem test_wf_lutB : (Instr.lutB (fill 0 43)).wf = false := by decide

/-! ## Host request words (R71; V19 to V28) -/

theorem test_decode_new : decodeRequest { word := 0x0000000001, img := noImage } = some .new := by decide
theorem test_decode_on : decodeRequest { word := 0x0000000002, img := noImage } = some .on := by decide
theorem test_decode_display :
    decodeRequest { word := 0x0000000003, img := dot 1 0 } = some (.display (dot 1 0)) := by decide
theorem test_decode_clear : decodeRequest { word := 0x0000000004, img := noImage } = some .clear := by decide
theorem test_decode_release : decodeRequest { word := 0x0000000005, img := noImage } = some .release := by decide
theorem test_decode_awaitBusy : decodeRequest { word := 0xFFFFFFFF06, img := noImage } = some .awaitBusy := by decide
theorem test_decode_awaitBusyT :
    decodeRequest { word := 0x0000006407, img := noImage } = some (.awaitBusyT 100) := by decide
theorem test_decode_pack :
    decodeRequest { word := 0x0000000108, img := dot 1 0 } = some (.pack (dot 1 0)) := by decide
theorem test_decode_reserved :
    decodeRequest { word := 0x0000000000, img := noImage } = none ∧
    decodeRequest { word := 0x0000000009, img := noImage } = none ∧
    decodeRequest { word := 0x00000000FF, img := noImage } = none := by decide

/-! ## Bus command bytes (R80) -/

theorem test_decode_busyQuery : decodeCommand 0x71 [] = some .busyQuery := by decide
theorem test_decode_displayRefresh : decodeCommand 0x12 [] = some .displayRefresh := by decide
theorem test_decode_writeBuffer1 :
    decodeCommand 0x10 (fill 0x5A 1280) = some (.writeBuffer1 (fill 0x5A 1280)) ∧
    decodeCommand 0x10 (fill 0x5A 1279) = none := by decide +kernel
theorem test_decode_writeBuffer2 :
    decodeCommand 0x13 (fill 0x5A 1280) = some (.writeBuffer2 (fill 0x5A 1280)) ∧
    decodeCommand 0x13 [] = none := by decide +kernel
theorem test_decode_lutW : decodeCommand 0x23 (fill 0x11 42) = some (.lutW (fill 0x11 42)) := by decide
theorem test_decode_lutB : decodeCommand 0x24 (fill 0x22 42) = some (.lutB (fill 0x22 42)) := by decide
theorem test_decode_powerSetting : decodeCommand 0x01 [0xAA] = some (.powerSetting [0xAA]) := by decide
theorem test_decode_chargePump : decodeCommand 0x06 [0xAA] = some (.chargePump [0xAA]) := by decide
theorem test_decode_lutOption : decodeCommand 0x2A [1, 2] = some (.lutOption [1, 2]) := by decide
theorem test_decode_clockFrequency : decodeCommand 0x30 [0xAA] = some (.clockFrequency [0xAA]) := by decide
theorem test_decode_vcomInterval : decodeCommand 0x50 [0xAA] = some (.vcomInterval [0xAA]) := by decide
theorem test_decode_gateSourceTiming : decodeCommand 0x60 [0xAA] = some (.gateSourceTiming [0xAA]) := by decide
theorem test_decode_resolution : decodeCommand 0x61 [80, 128] = some (.resolution [80, 128]) := by decide
theorem test_decode_vcomDc : decodeCommand 0x82 [0xAA] = some (.vcomDc [0xAA]) := by decide
theorem test_decode_powerSaving : decodeCommand 0xE3 [0x88] = some (.powerSaving [0x88]) := by decide
theorem test_decode_powerOn : decodeCommand 0x04 [] = some .powerOn ∧ decodeCommand 0x04 [0] = none := by decide
theorem test_decode_powerOff : decodeCommand 0x02 [] = some (.powerOff []) := by decide
theorem test_decode_deepSleep : decodeCommand 0x07 [0xA5] = some (.deepSleep [0xA5]) := by decide
theorem test_decode_no_command : decodeCommand 0x00 [] = none ∧ decodeCommand 0xFF [] = none := by decide

/-- The fixed names agree on a row of each kind: the next step runs the table word's instruction. -/
theorem test_fetchWord :
    decodeTableWord 40 0x05 = some .release ∧ decodeTableWord 8 0x71 = some .busyQuery ∧
    goesOnIn (step (State.reset.withFetchWord 40 0x05)) (fun t => t.status = .invalidState) = true ∧
    goesOnIn (step ((between .idle (platform (ok 1) [] [])).withFetchWord 8 0x71))
      (fun t => t.trace = [.setPin .dc .low, .spiWrite [0x71] .ok]) = true := by decide +kernel

/-- The stream of V28's paragraph, with short data (R79). -/
theorem test_split :
    splitStream [(.low, 0x10), (.high, 0), (.high, 1), (.low, 0x13), (.high, 2), (.low, 0x12), (.low, 0x71)] =
      [(0x10, [0, 1]), (0x13, [2]), (0x12, []), (0x71, [])] := by decide

/-! ## The bit-packer (V1 to V8, V13, V15 to V18) -/

theorem test_pack_V1 : packPixels (dot 0 0) [] = [(1270, 0x7F)] := by decide +kernel
theorem test_pack_V3 : packPixels (dot 127 79) [] = [(9, 0xFE)] := by decide +kernel
theorem test_pack_V4 : packPixels (dot 0 79) [] = [(1279, 0xFE)] := by decide +kernel
theorem test_pack_V5 : packPixels (dot 5 13) [(7, 0x00)] = [(1221, 0xFB)] := by decide +kernel
theorem test_pack_V7 : packPixels (dot 100 7) [] = [(270, 0xFE)] := by decide +kernel
theorem test_pack_V12 :
    packPixels block [] =
      [(1200, 0), (1210, 0), (1220, 0), (1230, 0), (1240, 0), (1250, 0), (1260, 0), (1270, 0)] := by decide +kernel
theorem test_pack_sizes :
    sizeMatches { w := 80, h := 128, blacks := 0 } = false ∧ sizeMatches { w := 128, h := 79, blacks := 0 } = false ∧
    sizeMatches { w := 0, h := 0, blacks := 0 } = false ∧ sizeMatches (dot 0 0) = true := by decide

/-! ## The bus primitives (V29 to V34) -/

theorem test_sendCmd_V29 :
    (match sendCmd 0x12 (between .idle (platform (ok 1) [] [])) with
      | .ok s => s.trace
      | .fault _ => []) = [.setPin .dc .low, .spiWrite [0x12] .ok] := by decide +kernel
theorem test_sendData_V32 :
    (match sendData [0xAA, 0x55] (between .idle (platform [.count 1] [] [])) with
      | .ok _ => []
      | .fault s => s.trace) = [.setPin .dc .high, .spiWrite [0xAA, 0x55] (.err 1)] := by decide +kernel
/-- R57: of the write of V32 the panel took in the prefix of one byte, at DC High. -/
theorem test_delivered_prefix :
    dcStream .low [.setPin .dc .high, .spiWrite [0xAA, 0x55] (.err 1), .setPin .dc .low, .spiWrite [0x02] .ok] =
      [(.high, 0xAA), (.low, 0x02)] := by decide
theorem test_sendCmdData_V33 :
    (match sendCmdData 0x23 (fill 0 42) (between .off (platform [.err] [] [])) with
      | .ok _ => []
      | .fault s => s.trace) = [.setPin .dc .low, .spiWrite [0x23] (.err 1)] := by decide +kernel

/-! ## The requests (V35 to V83) -/

theorem test_new_V83 :
    goesOnIn (exec .new (faulted { between .absent (platform [] [] []) with
        platform := { Platform.fresh with acquire := [.granted { reset := .low, dc := .high, power := .low }] } }))
      (fun t => t.panel = .off ∧ t.fault.f = false ∧ t.status = .ok ∧ t.trace = [] ∧
        t.latches = { reset := .low, dc := .high, power := .low }) = true := by decide +kernel
theorem test_new_V52 :
    goesOnIn (exec .new { between .absent (platform [] [] []) with
        platform := { Platform.fresh with acquire := [.refused] } })
      (fun t => t.panel = .absent ∧ t.status = .acquisitionFailure ∧ t.trace = []) = true := by decide +kernel

theorem test_on_V53 :
    goesOnIn (exec .on (between .off (platform (ok 10) [.high] [])))
      (fun t => t.panel = .idle ∧ t.status = .ok ∧ t.trace =
        [.setPin .power .high, .setPin .reset .high, .sleep 200, .setPin .reset .low, .sleep 2,
         .setPin .reset .high, .sleep 200,
         .setPin .dc .low, .spiWrite [0x01] .ok, .setPin .dc .high, .spiWrite [0xAA] .ok,
         .setPin .dc .low, .spiWrite [0xE3] .ok,
         .setPin .dc .low, .spiWrite [0x23] .ok, .setPin .dc .high, .spiWrite (fill 0x11 42) .ok,
         .setPin .dc .low, .spiWrite [0x24] .ok, .setPin .dc .high, .spiWrite (fill 0x22 42) .ok,
         .setPin .dc .low, .spiWrite [0x04] .ok,
         .setPin .dc .low, .spiWrite [0x71] .ok, .readBusy .high]) = true := by decide +kernel
theorem test_on_V54 :
    goesOnIn (exec .on (between .off (platform (ok 7 ++ [.err]) [] [])))
      (fun t => t.panel = .initializing ∧ t.fault.f = true ∧ t.status = .transportFault ∧
        t.trace.getLast? = some (.spiWrite [0x04] (.err 1))) = true := by decide +kernel

theorem test_display_V55 :
    goesOnIn (exec (.display (dot 5 13)) (between .idle (platform (ok 6) [.high] [])))
      (fun t => t.panel = .idle ∧ t.status = .ok ∧ t.trace =
        [.setPin .dc .low, .spiWrite [0x10] .ok, .setPin .dc .high, .spiWrite (fill 0x00 1280) .ok,
         .setPin .dc .low, .spiWrite [0x13] .ok, .setPin .dc .high,
         .spiWrite (fill 0xFF 1221 ++ [0xFB] ++ fill 0xFF 58) .ok,
         .setPin .dc .low, .spiWrite [0x12] .ok, .sleep 10,
         .setPin .dc .low, .spiWrite [0x71] .ok, .readBusy .high]) = true := by decide +kernel
/-- V56: the data of 0x10 with REF_MODE complement. -/
theorem test_display_V56 :
    goesOnIn (exec (.display (dot 5 13)) (withRefMode .complement (between .idle (platform (ok 6) [.high] []))))
      (fun t => t.panel = .idle ∧ t.status = .ok ∧
        t.trace[3]? = some (.spiWrite (fill 0x00 1221 ++ [0x04] ++ fill 0x00 58) .ok)) = true := by decide +kernel
theorem test_display_V58 :
    goesOnIn (exec (.display (dot 5 13)) (between .idle (platform (ok 3 ++ [.err]) [] [])))
      (fun t => t.panel = .busy ∧ t.fault.f = true ∧ t.status = .transportFault) = true := by decide +kernel

theorem test_clear_V59 :
    goesOnIn (exec .clear (between .idle (platform (ok 6) [.low] [])))
      (fun t => t.panel = .busy ∧ t.seq = some { request := .clear, rest := waitingLines .clear } ∧
        t.trace.length = 14) = true := by decide +kernel
theorem test_clear_V81 :
    goesOnIn (exec .clear (faulted (between .busy (platform [] [] []))))
      (fun t => t.panel = .busy ∧ t.status = .faulted ∧ t.trace = []) = true := by decide +kernel

theorem test_release_V60 :
    goesOnIn (exec .release (between .idle (platform (ok 4) [.high] [])))
      (fun t => t.panel = .absent ∧ t.status = .ok ∧ t.trace =
        [.setPin .dc .low, .spiWrite [0x02] .ok, .setPin .dc .low, .spiWrite [0x07] .ok,
         .setPin .dc .high, .spiWrite [0xA5] .ok, .setPin .dc .low, .spiWrite [0x71] .ok, .readBusy .high,
         .sleep 2000, .setPin .power .low]) = true := by decide +kernel
theorem test_release_V61 :
    goesOnIn (exec .release (between .idle (platform (ok 1 ++ [.err]) [] [])))
      (fun t => t.panel = .absent ∧ t.fault.f = true ∧ t.status = .transportFault ∧
        t.latches.power = .high) = true := by decide +kernel

theorem test_awaitBusy_V63 :
    goesOnIn (exec .awaitBusy (between .idle (platform (ok 1) [.high] [])))
      (fun t => t.panel = .idle ∧ t.status = .ok ∧
        t.trace = [.setPin .dc .low, .spiWrite [0x71] .ok, .readBusy .high]) = true := by decide +kernel
theorem test_awaitBusy_V65 :
    goesOnIn (Sys2Proof.core.run 2 (offering (between .idle (platform [.all, .err] [.low] [])) 0x06 noImage))
      (fun t => t.panel = .busy ∧ t.status = .transportFault ∧ t.trace =
        [.setPin .dc .low, .spiWrite [0x71] .ok, .readBusy .low, .sleep 50,
         .setPin .dc .low, .spiWrite [0x71] (.err 1)]) = true := by decide +kernel

theorem test_awaitBusyT_V67 :
    goesOnIn (Sys2Proof.core.run 3
        (offering (between .idle (platform (ok 3) [.low, .low, .low] [0, 1, 1])) 0x6407 noImage))
      (fun t => t.panel = .idle ∧ t.status = .busyTimeout ∧ t.deadline = 100 ∧ t.trace =
        [.setPin .dc .low, .spiWrite [0x71] .ok, .readBusy .low, .now 0, .sleep 50,
         .setPin .dc .low, .spiWrite [0x71] .ok, .readBusy .low, .now 51, .sleep 50,
         .setPin .dc .low, .spiWrite [0x71] .ok, .readBusy .low, .now 102]) = true := by decide +kernel
/-- V68: `NOW -> 100` is not past 100. -/
theorem test_awaitBusyT_V68 :
    goesOnIn (Sys2Proof.core.run 3
        (offering (between .idle (platform (ok 3) [.low, .low, .low] [0, 0, 0])) 0x6407 noImage))
      (fun t => t.panel = .busy ∧ t.seq ≠ none ∧ t.trace.getLast? = some (.now 100)) = true := by decide +kernel

theorem test_pack_V40 :
    goesOnIn (exec (.pack block) (between .absent (platform [] [] [])))
      (fun t => t.panel = .absent ∧ t.status = .ok ∧ t.trace = [] ∧ memRead t.devbuf 1270 = 0x00 ∧
        memRead t.devbuf 1271 = 0xFF) = true := by
  decide +kernel
theorem test_pack_V15 :
    goesOnIn (exec (.pack { w := 80, h := 128, blacks := 0 }) (between .absent (platform [] [] [])))
      (fun t => t.status = .sizeMismatch ∧ t.devbuf = [] ∧ t.trace = []) = true := by decide +kernel

/-! ## The bus commands (R186 to R203): a frame without data, and one with -/

theorem test_bus_busyQuery :
    goesOnIn (exec .busyQuery (between .busy (platform (ok 1) [] [])))
      (fun t => t.trace = [.setPin .dc .low, .spiWrite [0x71] .ok]) = true := by decide +kernel
theorem test_bus_lutW :
    goesOnIn (exec (.lutW (fill 0x11 42)) (between .initializing (platform (ok 2) [] [])))
      (fun t => t.latches.dc = .high ∧ t.trace =
        [.setPin .dc .low, .spiWrite [0x23] .ok, .setPin .dc .high, .spiWrite (fill 0x11 42) .ok]) = true := by
  decide +kernel

/-! ## The written forms (R83, R84) -/

theorem test_lineWord : lineWord { name := "AWAIT_BUSY_T", img := none, ms := some 100 } = some "0000006407" := by
  decide +kernel
theorem test_eventText :
    eventText (.spiWrite [0x12] .ok) = "WR [0x12]" ∧ eventText (.setPin .dc .low) = "PIN DC L" ∧
    eventText (.spiWrite [0xAA, 0x55] (.err 1)) = "WR [0xAA 0x55] -> err" := by decide +kernel

/-! ## Witnesses: states and operands that meet the hypotheses of each statement -/

/-- An Idle state whose platform accepts `n` writes and reads the given levels. -/
def idleWith (n : Nat) (busy : List Level) : State := between .idle (platform (ok n) busy [])

theorem witness_O1 :
    (Instr.writeBuffer1 (fill 0 1280)).WellFormed ∧ (Instr.lutB (fill 0xFF 42)).WellFormed ∧
    (Instr.awaitBusyT 0xFFFFFFFF).WellFormed := by decide +kernel
theorem witness_O2 : decodeCommand 0x82 [0xFF] = some (.vcomDc [0xFF]) := by decide

/-- Reserved OPs at both ends of the ranges; requests that differ only where they are not read. -/
theorem witness_O4 :
    (opField 0xFFFFFFFF00 = 0 ∧ 9 ≤ (opField 0x0000000009).toNat ∧ 9 ≤ (opField 0x00000000FF).toNat) ∧
    (offering (idleWith 0 []) 0x09 noImage).seq = none ∧
    (opField 0x0000000001 = opField 0xFFFFFFFF01 ∧ opField 0xFFFFFFFF01 ≠ 0x07 ∧ opField 0xFFFFFFFF01 ≠ 0x03 ∧
      opField 0xFFFFFFFF01 ≠ 0x08) := by decide
theorem witness_O6 :
    parseLine { name := "AWAIT_BUSY_T", img := none, ms := some 4294967295 } = some (.awaitBusyT 0xFFFFFFFF) ∧
    parseLine { name := "drop", img := none, ms := none } = some .release := by decide +kernel

theorem witness_O7 :
    (let s := offering (idleWith 0 []) 0x05 noImage
     s.seq = none ∧ s.requests = [{ word := 0x05, img := noImage }] ∧
      decodeRequest { word := 0x05, img := noImage } = some .release) ∧
    (({ idleWith 0 [] with seq := some { request := .on, rest := [.send 0x04 []] } } : State).seq =
      some { request := .on, rest := [.send 0x04 []] } ∧ decodeCommand 0x04 [] = some .powerOn) ∧
    (idleWith 0 []).seq = none ∧ (idleWith 0 []).requests = [] := by decide +kernel
theorem witness_O9 :
    (waiting .clear .busy (platform (ok 1) [.low] [])).seq ≠ none ∧
    goesOnIn (step (waiting .clear .busy (platform (ok 1) [.low] []))) (fun _ => true) = true := by decide +kernel

theorem witness_O10 :
    (idleWith 0 []).panel ≠ .absent ∧ (between .absent (platform [] [] [])).panel = .absent ∧
    (faulted (between .busy (platform [] [] []))).fault.f = true ∧
    (idleWith 0 []).fault.f = false ∧ (idleWith 0 []).panel ≠ .off ∧
    (between .off (platform [] [] [])).panel ≠ .idle := by decide +kernel
theorem witness_O11 :
    ¬(({ w := 128, h := 79, blacks := 0 } : Image).w = 128 ∧ ({ w := 128, h := 79, blacks := 0 } : Image).h = 80) ∧
    (idleWith 0 []).panel = .idle ∧ (idleWith 0 []).fault.f = false := by decide +kernel
theorem witness_O12 :
    (between .idle (platform [.count 2] [] [])).platform.spi = [.count 2] ∧
    (between .idle (platform [.all] [] [])).platform.spi = [.all] ∧
    (between .idle (platform [.err] [] [])).platform.spi = [.err] ∧
    ∃ n, SpiAnswer.count 1 = .count n ∧ n ≠ [0xAA, (0x55 : Byte)].length :=
  ⟨rfl, rfl, rfl, 1, rfl, by decide⟩
/-- For an error, and for short and long counts. -/
theorem witness_O13 : ∀ a ∈ [SpiAnswer.err, .count 0, .count 2],
    let s : State := { between .shuttingDown (platform [a] [] []) with
                        seq := some { request := .release, rest := [] } }
    encode (.powerOff []) = .command 0x02 [] ∧ s.seq = some { request := .release, rest := [] } ∧
    (nextSpi s).1 = a ∧ a ≠ .all ∧ a ≠ .count 1 := by decide +kernel
/-- V32's short count, on a command frame. -/
theorem test_short_command_frame :
    goesOnIn (exec (.lutW (fill 0x11 42)) (between .initializing (platform [.count 0] [] [])))
      (fun t => t.status = .transportFault ∧ t.fault.f = true ∧
        t.trace = [.setPin .dc .low, .spiWrite [0x23] (.err 1)]) = true := by decide +kernel
theorem witness_O14 :
    encode (.lutW (fill 0x11 42)) = .command 0x23 (fill 0x11 42) ∧
    writesAccepted (frameEvents 0x23 (fill 0x11 42)) [.all, .count 42, .err] = some [.err] ∧
    encode .powerOn = .command 0x04 [] ∧ writesAccepted (frameEvents 0x04 []) [.count 1] = some [] := by decide
theorem witness_O15 :
    decodeCommand 0x12 [] = some .displayRefresh ∧
    ({ idleWith 1 [] with seq := some { request := .clear, rest := [] } } : State).seq =
      some { request := .clear, rest := [] } := by decide +kernel

theorem witness_O16 :
    let s : State := { State.reset with platform := { Platform.fresh with acquire := [.refused] } }
    let u : State := { State.reset with
      platform := { Platform.fresh with acquire := [.granted { reset := .high, dc := .low, power := .low }] } }
    s.panel = .absent ∧ (nextAcquire s).1 = .refused ∧ u.panel = .absent ∧
    (nextAcquire u).1 = .granted { reset := .high, dc := .low, power := .low } := by decide +kernel
theorem witness_O17 :
    let s := between .off (platform (ok 9) [.high] [])
    s.panel = .off ∧ s.fault.f = false ∧ s.platform.busy = [.high] ∧
    writesAccepted (onEvents s.params .high) s.platform.spi = some [] := by decide +kernel
theorem witness_O18 :
    let s := faulted (between .busy (platform (ok 5) [.high] []))
    s.panel ≠ .absent ∧ s.platform.busy = [.high] ∧
    writesAccepted (offEvents s.params) s.platform.spi = some [.all] := by decide +kernel
theorem witness_O19 :
    (between .off (platform [] [] [])).panel = .off ∧ (between .off (platform [] [] [])).fault.f = false := by
  decide +kernel
theorem witness_O20 : (faulted (between .initializing (platform [] [] []))).panel ≠ .absent := by decide +kernel

theorem witness_O21 : tableImage.w = 128 ∧ tableImage.h = 80 := by decide
theorem witness_O22 :
    ({ State.reset with devbuf := [(0, 0x00), (1279, 0x7F)] } : State).devbuf.wf = true ∧
    State.reset.devbuf.wf = true ∧ tableImage.w = 128 ∧ tableImage.h = 80 := by
  decide
/-- Two images with the same pixels and different representations, over different buffers. -/
theorem witness_O23 :
    Memory.wf [] = true ∧ Memory.wf [(3, 0x00)] = true ∧
    ∀ x y, x < 128 → y < 80 →
      pixel tableImage x y = pixel { w := 128, h := 80, blacks := 2 ^ 10240 } x y := by
  refine ⟨rfl, rfl, fun x y hx hy => ?_⟩
  have h : ¬(10240 = y * 128 + x) := by omega
  simp [pixel, tableImage, h]
theorem witness_O24_white : ∀ x y, x < 128 → y < 80 → pixel tableImage x y = .white := by
  intro x y _ _
  simp [pixel, tableImage]
theorem witness_O24_black : ∀ x y, x < 128 → y < 80 → pixel allBlack x y = .black := by
  intro x y hx hy
  have h : y * 128 + x < 10240 := by omega
  simp [pixel, allBlack, h]
theorem witness_O25 :
    ∀ x' y', x' < 128 → y' < 80 → (pixel (dot 127 79) x' y' = .black ↔ x' = 127 ∧ y' = 79) := by
  intro x y hx hy
  simp only [pixel, dot, Nat.testBit_two_pow, BitVec.reduceToNat]
  by_cases h : 79 * 128 + 127 = y * 128 + x
  · simp only [h, decide_true, if_true, true_iff]; omega
  · simp only [h, decide_false, Bool.false_eq_true, if_false, reduceCtorEq, false_iff]; omega
theorem witness_O26 : Memory.wf [(9, 0x00)] = true ∧ (0 : Nat) < 10240 ∧ 10239 < 10240 := by decide

/-- For each REF_MODE. -/
theorem witness_O27 : ∀ m ∈ [RefMode.fill, .complement],
    let s := withRefMode m (idleWith 6 [.high])
    s.params.refMode = m ∧ s.panel = .idle ∧ s.fault.f = false ∧ s.platform.busy = [.high] ∧
    writesAccepted
      (refreshEvents (referenceBytes s.params.refMode (packPixels (dot 5 13) s.devbuf))
        (bufferBytes (packPixels (dot 5 13) s.devbuf)) .high) s.platform.spi = some [] := by decide +kernel
theorem witness_O28 :
    let s := idleWith 6 [.high]
    s.panel = .idle ∧ s.fault.f = false ∧ s.platform.busy = [.high] ∧
    writesAccepted (refreshEvents (fill s.params.clearFill1 1280) (fill s.params.clearFill2 1280) .high)
      s.platform.spi = some [] := by decide +kernel
/-- For O29, O31 and the bare guards of O34. -/
theorem witness_O29_O31 : (idleWith 0 []).panel = .idle ∧ (idleWith 0 []).fault.f = false := by decide +kernel
theorem witness_O30 :
    let s := idleWith 1 [.high]
    s.panel = .idle ∧ s.fault.f = false ∧ s.platform.busy = [.high] ∧
    writesAccepted (pollEvents .high) s.platform.spi = some [] := by decide +kernel
theorem witness_O32 :
    let s := offering (idleWith 3 [.low, .low, .high]) 0x06 noImage
    s.panel = .idle ∧ s.fault.f = false ∧ s.seq = none ∧ s.requests = [{ word := 0x06, img := noImage }] ∧
    decodeRequest { word := 0x06, img := noImage } = some .awaitBusy ∧
    s.platform.busy = List.replicate 2 .low ++ [.high] ∧
    writesAccepted (awaitBusyEvents 2) s.platform.spi = some [] := by decide +kernel
theorem witness_O33 :
    let s := waiting .release .shuttingDown (platform (ok 3) [.low, .low, .low] [])
    s.seq = some { request := .release, rest := waitingLines .release } ∧
    s.platform.busy = List.replicate 3 .low ++ [] ∧
    writesAccepted (busyPolls 3) s.platform.spi = some [] := by decide +kernel
/-- For each clause: a first poll Low; a later poll High; later polls Low just at the deadline and just past it. -/
theorem witness_O34 :
    (let s := between .idle (platform (ok 1) [.low] [7])
     s.panel = .idle ∧ s.fault.f = false ∧ s.platform.busy = [.low] ∧ s.platform.clock = [7] ∧
     writesAccepted (pollEvents .low) s.platform.spi = some []) ∧
    (let s := waiting .awaitBusyT .busy (platform (ok 1) [.high] [])
     s.seq = some { request := .awaitBusyT, rest := waitingLines .awaitBusyT } ∧ s.platform.busy = [.high] ∧
     writesAccepted (pollEvents .high) s.platform.spi = some []) ∧
    (∀ x ∈ [0, 1],
      let s : State := { waiting .awaitBusyT .busy (platform (ok 1) [.low] [x]) with
                          deadline := 150,
                          platform := { platform (ok 1) [.low] [x] with lastNow := some 100 } }
      s.seq = some { request := .awaitBusyT, rest := waitingLines .awaitBusyT } ∧ s.panel = .busy ∧
      s.platform.busy = [.low] ∧ s.platform.clock = [x] ∧ s.platform.lastNow = some 100 ∧
      writesAccepted (pollEvents .low) s.platform.spi = some []) := by decide +kernel
theorem witness_O35 :
    let s := offering (idleWith 0 []) 0x6407 noImage
    s.panel = .idle ∧ s.fault.f = false ∧ s.seq = none ∧ s.requests = [{ word := 0x6407, img := noImage }] ∧
    decodeRequest { word := 0x6407, img := noImage } = some (.awaitBusyT 100) := by decide +kernel
theorem witness_O37 :
    let s := waiting .on .initializing (platform (ok 1) [.high] [])
    s.seq = some { request := .on, rest := waitingLines .on } ∧
    goesOnIn (step s) (fun t => t.panel = .idle) = true := by decide +kernel

/-- A waiting state that meets the invariant, and a step from it. -/
theorem witness_O39 :
    let s : State := { waiting .clear .busy (platform (ok 1) [.high] []) with devbuf := [(0, 0x7F)] }
    (s.devbuf.wf = true ∧ faultCoherent s = true ∧ sessionLegal s = true ∧ panelPowered s = true ∧
      traceFramed s = true) ∧ goesOnIn (step s) (fun t => t.panel = .idle) = true := by decide +kernel
/-- For O40, O41, O42 and O48: instructions that answer a next state, from a faulted state and from an Idle one. -/
theorem witness_O40_O41_O42_O48 :
    (faulted (between .busy (platform (ok 5) [.high] []))).fault.f = true ∧
    goesOnIn (exec .release (faulted (between .busy (platform (ok 5) [.high] []))))
      (fun t => t.fault.f = true ∧ t.panel = .absent) = true ∧
    goesOnIn (exec .awaitBusy (idleWith 1 [.low])) (fun t => t.panel = .busy) = true ∧
    goesOnIn (exec (.pack block) (idleWith 0 [])) (fun t => t.panel = .idle) = true ∧
    (waiting .release .shuttingDown (platform [.err] [] [])).seq ≠ none ∧
    goesOnIn (step (faulted (waiting .release .shuttingDown (platform [.err] [] []))))
      (fun t => t.fault.f = true) = true := by decide +kernel
/-- For each clause of O43: a request that waits, one that ends, and nothing to do. -/
theorem witness_O43 :
    sessionLegal (waiting .display .busy (platform (ok 1) [.low] [])) = true ∧
    sessionLegal (offering (idleWith 0 []) 0xFF noImage) = true ∧ sessionLegal (idleWith 0 []) = true ∧
    goesOnIn (step (waiting .display .busy (platform (ok 1) [.low] []))) (fun t => t.seq ≠ none) = true ∧
    goesOnIn (step (offering (idleWith 0 []) 0xFF noImage)) (fun t => t.status = .invalidRequest) = true := by
  decide +kernel
/-- For each clause of O44: an instruction, a later step, NEW, an open session. -/
theorem witness_O44 :
    Instr.release ≠ .new ∧
    goesOnIn (exec .release (between .off (platform (ok 4) [.high] [])))
      (fun t => t.latches.power = .low) = true ∧
    (waiting .release .shuttingDown (platform (ok 1) [.high] [])).seq ≠ none ∧
    goesOnIn (step (waiting .release .shuttingDown (platform (ok 1) [.high] [])))
      (fun t => t.latches.power = .low) = true ∧
    goesOnIn (exec .new State.reset) (fun _ => true) = true ∧ (idleWith 0 []).panel ≠ .absent := by decide +kernel
theorem witness_O45 : decodeRequest { word := 0x01, img := noImage } = some .new := by decide
theorem witness_O49 :
    let s := waiting .display .busy (platform [.count 0] [] [])
    sessionLegal s = true ∧
    goesOnIn (step s) (fun t => t.trace = [] ++ [.sleep 50, .setPin .dc .low, .spiWrite [0x71] (.err 1)]) = true ∧
    [PortEvent.sleep 50, .setPin .dc .low, .spiWrite [0x71] (.err 1)].any failedWrite = true := by decide +kernel

/-- For each clause of O50: a refused NEW, a failed query, a timed wait past its deadline, a swapped image, NEW in a
session, a reserved OP, CLEAR after a fault. -/
theorem witness_O50 :
    (let s := offering { between .absent (platform [] [] []) with
        platform := { Platform.fresh with acquire := [.refused] } } 0x01 noImage
     sessionLegal s = true ∧ goesOnIn (step s) (fun t => t.responses = [.acquisitionFailure]) = true) ∧
    (let s := waiting .awaitBusyT .busy (platform (ok 1) [.low] [1])
     sessionLegal s = true ∧ goesOnIn (step s) (fun t => t.responses = [.busyTimeout]) = true) ∧
    (let s := offering (idleWith 0 []) 0x03 { w := 80, h := 128, blacks := 0 }
     sessionLegal s = true ∧ goesOnIn (step s) (fun t => t.responses = [.sizeMismatch]) = true) ∧
    (let s := offering (idleWith 0 []) 0x09 noImage
     sessionLegal s = true ∧ goesOnIn (step s) (fun t => t.responses = [.invalidRequest]) = true) ∧
    (let s := waiting .on .initializing (platform [.err] [] [])
     sessionLegal s = true ∧ goesOnIn (step s) (fun t => t.responses = [.transportFault]) = true) ∧
    (let s := offering (between .off (platform [] [] [])) 0x01 noImage
     sessionLegal s = true ∧ goesOnIn (step s) (fun t => t.responses = [.invalidState]) = true) ∧
    (let s := offering (faulted (between .busy (platform [] [] []))) 0x04 noImage
     sessionLegal s = true ∧ goesOnIn (step s) (fun t => t.responses = [.faulted]) = true) := by
  decide +kernel

/-- For O47, besides the witnesses of O17 and O18. -/
theorem witness_O47 :
    let s := between .off (platform (ok 9) [.high] [])
    s.panel = .off ∧ s.fault.f = false ∧ s.panel ≠ .absent ∧ s.platform.busy = [.high] ∧
    writesAccepted (onEvents s.params .high) s.platform.spi = some [] ∧
    (writesAccepted (offEvents s.params) s.platform.spi).isSome = true := by decide +kernel
theorem witness_O51 :
    let s := waiting .release .shuttingDown (platform (ok 1) [.high] [])
    let u := waiting .awaitBusyT .busy (platform (ok 1) [.high] [])
    s.seq = some { request := .release, rest := waitingLines .release } ∧ s.platform.busy = [.high] ∧
    writesAccepted (pollEvents .high) s.platform.spi = some [] ∧
    u.seq = some { request := .awaitBusyT, rest := waitingLines .awaitBusyT } ∧ u.platform.busy = [.high] ∧
    writesAccepted (pollEvents .high) u.platform.spi = some [] := by decide +kernel
/-- For each clause of O52. -/
theorem witness_O52 :
    (let s := between .off (platform (ok 9) [.low] [])
     s.platform.busy = [.low] ∧ s.panel = .off ∧ s.fault.f = false ∧ s.panel ≠ .absent ∧
     writesAccepted (onEvents s.params .low) s.platform.spi = some [] ∧
     (writesAccepted (offWaitEvents s.params) s.platform.spi).isSome = true) ∧
    (∀ m ∈ [RefMode.fill, .complement],
     let s := withRefMode m (idleWith 6 [.low])
     s.params.refMode = m ∧ s.platform.busy = [.low] ∧ s.panel = .idle ∧ s.fault.f = false ∧
     (writesAccepted
      (refreshEvents (referenceBytes s.params.refMode (packPixels (dot 5 13) s.devbuf))
        (bufferBytes (packPixels (dot 5 13) s.devbuf)) .low) s.platform.spi).isSome = true ∧
     (writesAccepted (refreshEvents (fill s.params.clearFill1 1280) (fill s.params.clearFill2 1280) .low)
       s.platform.spi).isSome = true ∧
     (writesAccepted (pollEvents .low) s.platform.spi).isSome = true) := by decide +kernel
theorem witness_O53 :
    tableImage.w = 128 ∧ tableImage.h = 80 ∧ (idleWith 0 []).panel = .idle ∧ (idleWith 0 []).fault.f = false ∧
    goesOnIn (exec (.pack block) (idleWith 0 [])) (fun _ => true) = true ∧
    (waiting .on .initializing (platform (ok 1) [.high] [])).seq ≠ none ∧
    goesOnIn (step (waiting .on .initializing (platform (ok 1) [.high] []))) (fun _ => true) = true := by
  decide +kernel
/-- For each clause of O54: a short write, any prefix at both ends of its range, a state after a failed write. -/
theorem witness_O54 :
    (spiWrite [0xAA, 0x55] (between .idle (platform [.count 1] [] [])) =
      .fault (spiFail [0xAA, 0x55] (between .idle (platform [] [] [])))) ∧
    (∀ n ∈ [0, 2],
      let s : State := { idleWith 0 [] with platform := { Platform.fresh with spi := [.err], delivered := [n] } }
      n ≤ [0xAA, (0x55 : Byte)].length ∧ s.platform.spi = [.err] ∧ s.platform.delivered = [n]) ∧
    (let s : State := { idleWith 0 [] with trace := [.spiWrite [0x71] (.err 0)] }
     panelKnown s = false ∧ goesOnIn (step s) (fun _ => true) = true) := by decide +kernel

end Sys2Proof.Tests
end

section
/-! PROOFS. Shared layer: what an instruction can do (`ExecResult`), what a request that runs its lines comes to
(`ComesTo`), and what every line keeps of a session (`SessionStep`). -/

namespace Sys2Proof.Machine

/-! ## The prologue (42_controller.md R140) -/

/-- The prologue refuses with INVALID_STATE or FAULTED alone. -/
theorem prologue_error {k : RequestKind} {s : State} {e : Status} (h : prologue k s = some e) :
    e = .invalidState ∨ e = .faulted := by
  unfold prologue at h
  split_ifs at h <;> simp_all

/-- A request its guard refuses writes STATUS alone. -/
theorem raiseError_prologue {k : RequestKind} {s : State} {e : Status} (h : prologue k s = some e) :
    raiseError none e s = writeStatus e s := by
  rcases prologue_error h with rfl | rfl <;> rfl

theorem absent_of_prologue_new {s : State} (h : prologue .new s = none) : s.panel = .absent := by
  by_contra hp
  simp [prologue, hp] at h

theorem off_of_prologue_on {s : State} (h : prologue .on s = none) : s.panel = .off ∧ s.fault.f = false := by
  simp only [prologue] at h
  split_ifs at h <;> simp_all

theorem held_of_prologue_release {s : State} (h : prologue .release s = none) : s.panel ≠ .absent := by
  intro hp
  simp [prologue, hp] at h

/-- The requests that run in Busy start from Idle without a fault. -/
theorem idle_of_prologue_busy {k : RequestKind} {s : State} (hk : waitingState k = some .busy)
    (h : prologue k s = none) : s.panel = .idle ∧ s.fault.f = false := by
  have hb : k ≠ .release ∧ (k = .display ∨ k = .clear ∨ k = .awaitBusy ∨ k = .awaitBusyT) := by
    cases k <;> simp_all [waitingState]
  unfold prologue at h
  split_ifs at h <;> simp_all

theorem prologue_pack (s : State) : prologue .pack s = none := rfl

/-! ## What an instruction can do -/

/-- Instruction `i`, past its guard in `s`, runs the lines of request `k` from `s₀`. -/
inductive RunsLines (s : State) : Instr → RequestKind → List SeqOp → State → Prop
  | on (off : s.panel = .off) (sound : s.fault.f = false) : RunsLines s .on .on (onLines s.params) s
  | display (img : Image) (w : img.w = 128) (h : img.h = 80) (idle : s.panel = .idle) (sound : s.fault.f = false) :
      RunsLines s (.display img) .display (displayLines s.params (bufferBytes (packPixels img s.devbuf)))
        { s with devbuf := packPixels img s.devbuf }
  | clear (idle : s.panel = .idle) (sound : s.fault.f = false) : RunsLines s .clear .clear (clearLines s.params) s
  | release (held : s.panel ≠ .absent) : RunsLines s .release .release (releaseLines s.params) s
  | awaitBusy (idle : s.panel = .idle) (sound : s.fault.f = false) :
      RunsLines s .awaitBusy .awaitBusy awaitBusyLines s
  | awaitBusyT (tmo : BitVec 32) (idle : s.panel = .idle) (sound : s.fault.f = false) :
      RunsLines s (.awaitBusyT tmo) .awaitBusyT (awaitBusyTLines (timeoutMs tmo)) (startClock s)

/-- The states an instruction can leave: refused with STATUS alone written, the acquisition denied or the session
opened, the image packed, lines run, or a bus command sent. -/
inductive ExecResult (s : State) : Instr → State → Prop
  | refused (i : Instr) (e : Status) : ExecResult s i (writeStatus e s)
  | denied : ExecResult s .new (writeStatus .acquisitionFailure (nextAcquire s).2)
  | opened (levels : Latches) (absent : s.panel = .absent) (granted : (nextAcquire s).1 = .granted levels) :
      ExecResult s .new (writeStatus .ok (clearFault { (nextAcquire s).2 with latches := levels, panel := .off }))
  | packed (img : Image) (w : img.w = 128) (h : img.h = 80) :
      ExecResult s (.pack img) (writeStatus .ok { s with devbuf := packPixels img s.devbuf })
  | ran {i : Instr} {k : RequestKind} {lines : List SeqOp} {s₀ : State} (lines_run : RunsLines s i k lines s₀) :
      ExecResult s i (runOps k lines s₀)
  | sent {i : Instr} {c : Byte} {p : List Byte} (command : encode i = .command c p) :
      ExecResult s i (runBusCommand c p s)

/-- A request that runs pseudocode is refused, or runs its lines where the guard lets it. -/
theorem execResult_runRequest {i : Instr} {k : RequestKind} {lines : List SeqOp} {s : State}
    (h : prologue k s = none → RunsLines s i k lines s) : ExecResult s i (runRequest k lines s) := by
  unfold runRequest
  cases hp : prologue k s with
  | some e => simp only [raiseError_prologue hp]; exact .refused i e
  | none => exact .ran (h hp)

/-- Packing succeeds on a 128 x 80 image alone. -/
theorem packImage_cases (img : Image) (m : Memory) :
    packImage img m = none ∨ (img.w = 128 ∧ img.h = 80 ∧ packImage img m = some (packPixels img m)) := by
  cases hs : sizeMatches img with
  | false => exact .inl (by simp [packImage, hs])
  | true =>
    obtain ⟨hw, hh⟩ := (sizeMatches_iff img).1 hs
    exact .inr ⟨hw, hh, packImage_sized m hw hh⟩

theorem execNew_result (s : State) : ∃ t, execNew s = .next t ∧ ExecResult s .new t := by
  refine ⟨_, rfl, ?_⟩
  cases hp : prologue .new s with
  | some e => simp only [raiseError_prologue hp]; exact .refused _ e
  | none =>
    simp only [openSession]
    cases ha : (nextAcquire s).1 with
    | refused => exact .denied
    | granted levels => exact .opened levels (absent_of_prologue_new hp) ha

theorem execPack_result (img : Image) (s : State) : ∃ t, execPack img s = .next t ∧ ExecResult s (.pack img) t := by
  refine ⟨_, rfl, ?_⟩
  simp only [prologue_pack]
  rcases packImage_cases img s.devbuf with h | ⟨hw, hh, h⟩
  · simp only [h]; exact .refused _ .sizeMismatch
  · simp only [h]; exact .packed img hw hh

theorem execDisplay_result (img : Image) (s : State) :
    ∃ t, execDisplay img s = .next t ∧ ExecResult s (.display img) t := by
  refine ⟨_, rfl, ?_⟩
  cases hp : prologue .display s with
  | some e => simp only [raiseError_prologue hp]; exact .refused _ e
  | none =>
    obtain ⟨hi, hf⟩ := idle_of_prologue_busy rfl hp
    rcases packImage_cases img s.devbuf with h | ⟨hw, hh, h⟩
    · simp only [h]; exact .refused _ .sizeMismatch
    · simp only [h]; exact .ran (.display img hw hh hi hf)

theorem execAwaitBusyT_result (tmo : BitVec 32) (s : State) :
    ∃ t, execAwaitBusyT tmo s = .next t ∧ ExecResult s (.awaitBusyT tmo) t := by
  refine ⟨_, rfl, ?_⟩
  cases hp : prologue .awaitBusyT s with
  | some e => simp only [raiseError_prologue hp]; exact .refused _ e
  | none =>
    obtain ⟨hi, hf⟩ := idle_of_prologue_busy rfl hp
    exact .ran (.awaitBusyT tmo hi hf)

/-- An instruction is a host request, or one command frame with its data. -/
theorem exec_result (i : Instr) (s : State) : ∃ t, exec i s = .next t ∧ ExecResult s i t := by
  cases i with
  | new => exact execNew_result s
  | on =>
    refine ⟨_, rfl, execResult_runRequest fun h => ?_⟩
    obtain ⟨ho, hf⟩ := off_of_prologue_on h
    exact .on ho hf
  | display img => exact execDisplay_result img s
  | clear =>
    refine ⟨_, rfl, execResult_runRequest fun h => ?_⟩
    obtain ⟨hi, hf⟩ := idle_of_prologue_busy rfl h
    exact .clear hi hf
  | release => exact ⟨_, rfl, execResult_runRequest fun h => .release (held_of_prologue_release h)⟩
  | awaitBusy =>
    refine ⟨_, rfl, execResult_runRequest fun h => ?_⟩
    obtain ⟨hi, hf⟩ := idle_of_prologue_busy rfl h
    exact .awaitBusy hi hf
  | awaitBusyT tmo => exact execAwaitBusyT_result tmo s
  | pack img => exact execPack_result img s
  | _ => exact ⟨_, exec_of_encode rfl s, .sent rfl⟩

theorem execResult_of_exec {i : Instr} {s t : State} (h : exec i s = .next t) : ExecResult s i t := by
  obtain ⟨u, hu, hr⟩ := exec_result i s
  rw [hu] at h
  cases h
  exact hr

/-- The host port carries no bus command. -/
theorem encode_ne_command_of_decodeRequest {r : HostRequest} {i : Instr} (h : decodeRequest r = some i) (c : Byte)
    (p : List Byte) : encode i ≠ .command c p := by
  unfold decodeRequest at h
  split at h <;> cases h <;> simp [encode]

/-- Lines start in the state the request was taken in, but for the packed image and the clock's start. -/
theorem RunsLines.start {s s₀ : State} {i : Instr} {k : RequestKind} {lines : List SeqOp}
    (h : RunsLines s i k lines s₀) : ∃ p, s₀ = { s with devbuf := s₀.devbuf, platform := p } := by
  cases h <;> exact ⟨_, rfl⟩

theorem RunsLines.devbuf {s s₀ : State} {i : Instr} {k : RequestKind} {lines : List SeqOp}
    (h : RunsLines s i k lines s₀) :
    s₀.devbuf = s.devbuf ∨
    ∃ img, i = .display img ∧ img.w = 128 ∧ img.h = 80 ∧ s₀.devbuf = packPixels img s.devbuf := by
  cases h with
  | display img w h idle sound => exact .inr ⟨img, rfl, w, h, rfl⟩
  | _ => exact .inl rfl

/-! ## What a later step can do -/

/-- A later step of a running request sends its next bus command or runs its lines. -/
theorem step_running {s t : State} (hs : s.seq ≠ none) (h : step s = .next t) :
    (∃ q c p, t = runBusCommand c p { s with seq := q }) ∨ ∃ k lines, t = runOps k lines s := by
  rcases step_cases s with ⟨hn, -⟩ | ⟨r, more, hn, -⟩ | ⟨r, more, i, hn, -⟩ | ⟨pos, c, p, rest, -, -, g⟩ | ⟨pos, -, g⟩
  · exact absurd hn hs
  · exact absurd hn hs
  · exact absurd hn hs
  · rw [g] at h; cases h; exact .inl ⟨_, c, p, rfl⟩
  · rw [g] at h; cases h; exact .inr ⟨_, _, rfl⟩

theorem lineStep_runBusCommand (c : Byte) (p : List Byte) (s : State) : LineStep s (runBusCommand c p s) := by
  obtain ⟨t, ht, h | h⟩ := runBusCommand_cases c p s
  · rw [h]; exact ht.line
  · rw [h]; exact ht.line.trans (lineStep_raiseError _ _ _)

theorem lineStep_step {s t : State} (hs : s.seq ≠ none) (h : step s = .next t) : LineStep s t := by
  rcases step_running hs h with ⟨q, c, p, rfl⟩ | ⟨k, lines, rfl⟩
  · exact .trans (t := { s with seq := q }) (.of_fields rfl rfl rfl rfl) (lineStep_runBusCommand c p _)
  · exact lineStep_runOps k lines s

/-! ## The fault bit and the latches through every line -/

theorem replayLatches_append (la : Latches) (xs ys : List PortEvent) :
    replayLatches la (xs ++ ys) = replayLatches (replayLatches la xs) ys := by
  induction xs generalizing la with
  | nil => rfl
  | cons e xs ih => cases e <;> exact ih _

/-- From `s` to `t` the fault bit is not cleared (10_state.md R24), and the latches are the old ones changed by the
`SetPin` events added to the trace (R26). -/
structure SessionStep (s t : State) : Prop where
  fault   : s.fault.f = true → t.fault.f = true
  latches : ∃ evs, t.trace = s.trace ++ evs ∧ t.latches = replayLatches s.latches evs

theorem SessionStep.of_fields {s t : State} (hf : s.fault.f = true → t.fault.f = true) (ht : t.trace = s.trace)
    (hl : t.latches = s.latches) : SessionStep s t :=
  ⟨hf, [], by simp [ht], hl⟩

theorem SessionStep.refl (s : State) : SessionStep s s := .of_fields id rfl rfl

theorem SessionStep.trans {s t u : State} (h : SessionStep s t) (g : SessionStep t u) : SessionStep s u := by
  obtain ⟨xs, hx, lx⟩ := h.latches
  obtain ⟨ys, hy, ly⟩ := g.latches
  exact ⟨g.fault ∘ h.fault, xs ++ ys, by rw [hy, hx, List.append_assoc], by rw [ly, lx, replayLatches_append]⟩

theorem sessionStep_setPin (p : OutPin) (l : Level) (s : State) : SessionStep s (setPin p l s) :=
  ⟨id, [.setPin p l], rfl, rfl⟩

theorem sessionStep_sleepFor (ms : Nat) (s : State) : SessionStep s (sleepFor ms s) := ⟨id, [.sleep ms], rfl, rfl⟩

theorem sessionStep_readBusy (s : State) : SessionStep s (readBusy s).2 :=
  ⟨by simp, [.readBusy (readBusy s).1], by simp, by simp [replayLatches]⟩

theorem sessionStep_readClock (s : State) : SessionStep s (readClock s).2 :=
  ⟨by simp, [.now (readClock s).1], by simp, by simp [replayLatches]⟩

theorem sessionStep_spiWrite (bytes : List Byte) (s : State) : SessionStep s (spiWrite bytes s).state := by
  rcases spiWrite_cases bytes s with ⟨-, h⟩ | ⟨-, h⟩ <;> rw [h]
  · exact ⟨by simp [PortResult.state], [.spiWrite bytes .ok], by simp [PortResult.state],
      by simp [PortResult.state, replayLatches]⟩
  · exact ⟨by simp [PortResult.state], [.spiWrite bytes (.err (nextDelivered bytes.length (nextSpi s).2).1)],
      by simp [PortResult.state], by simp [PortResult.state, replayLatches]⟩

theorem sessionStep_sendCmd (c : Byte) (s : State) : SessionStep s (sendCmd c s).state :=
  (sessionStep_setPin _ _ s).trans (sessionStep_spiWrite _ _)

theorem sessionStep_sendData (p : List Byte) (s : State) : SessionStep s (sendData p s).state := by
  cases p with
  | nil => exact .refl s
  | cons b rest => exact (sessionStep_setPin _ _ s).trans (sessionStep_spiWrite _ _)

theorem sessionStep_sendCmdData (c : Byte) (p : List Byte) (s : State) : SessionStep s (sendCmdData c p s).state := by
  have h := sessionStep_sendCmd c s
  unfold sendCmdData
  cases hc : sendCmd c s with
  | ok s' => rw [hc] at h; exact h.trans (sessionStep_sendData p s')
  | fault s' => rw [hc] at h; exact h

theorem sessionStep_poll (s : State) : SessionStep s (poll s).state := by
  have h := sessionStep_sendCmd 0x71 s
  unfold poll
  cases hc : sendCmd 0x71 s with
  | ok s' => rw [hc] at h; exact h.trans (sessionStep_readBusy s')
  | fault s' => rw [hc] at h; exact h

theorem sessionStep_runOp (op : SeqOp) (s : State) : SessionStep s (runOp op s).state := by
  have hp := sessionStep_poll s
  cases op with
  | enter p => exact .of_fields id rfl rfl
  | setPin p l => exact sessionStep_setPin p l s
  | sleep ms => exact sessionStep_sleepFor ms s
  | send c p =>
    have h := sessionStep_sendCmdData c p s
    simp only [runOp, runSend]
    cases hc : sendCmdData c p s <;> rw [hc] at h <;> exact h
  | awaitBusy =>
    simp only [runOp, runAwaitBusy]
    cases hc : poll s with
    | fault s' => rw [hc] at hp; exact hp
    | answered l s' => rw [hc] at hp; cases l <;> exact hp
  | awaitTimed d =>
    simp only [runOp, runAwaitTimed]
    cases hc : poll s with
    | fault s' => rw [hc] at hp; exact hp
    | answered l s' =>
      rw [hc] at hp
      cases l with
      | high => exact hp
      | low => exact (hp.trans (sessionStep_readClock s')).trans (.of_fields id rfl rfl)
  | pollTimed =>
    simp only [runOp, runPollTimed]
    cases hc : poll s with
    | fault s' => rw [hc] at hp; exact hp
    | answered l s' =>
      rw [hc] at hp
      cases l with
      | high => exact hp
      | low => simp only; split <;> exact hp.trans (sessionStep_readClock s')
  | finish p => exact .of_fields id rfl rfl

/-- An error sets the fault bit or leaves it. -/
theorem sessionStep_raiseError (k : Option RequestKind) (e : Status) (s : State) :
    SessionStep s (raiseError k e s) := by
  cases e with
  | transportFault => exact .of_fields (fun _ => rfl) rfl rfl
  | _ => exact .of_fields id rfl rfl

theorem sessionStep_runOps (k : RequestKind) (ops : List SeqOp) (s : State) : SessionStep s (runOps k ops s) := by
  induction ops generalizing s with
  | nil => exact .of_fields id rfl rfl
  | cons op rest ih =>
    have h := sessionStep_runOp op s
    simp only [runOps]
    cases hr : runOp op s with
    | done s' => rw [hr] at h; exact h.trans (ih s')
    | wait again s' => rw [hr] at h; exact h.trans (.of_fields id rfl rfl)
    | raise e s' => rw [hr] at h; exact h.trans (sessionStep_raiseError _ _ _)

theorem sessionStep_runBusCommand (c : Byte) (p : List Byte) (s : State) : SessionStep s (runBusCommand c p s) := by
  have h := sessionStep_sendCmdData c p s
  unfold runBusCommand
  cases hc : sendCmdData c p s with
  | ok s' => rw [hc] at h; exact h
  | fault s' => rw [hc] at h; exact h.trans (sessionStep_raiseError _ _ _)

theorem sessionStep_step {s t : State} (hs : s.seq ≠ none) (h : step s = .next t) : SessionStep s t := by
  rcases step_running hs h with ⟨q, c, p, rfl⟩ | ⟨k, lines, rfl⟩
  · exact .trans (t := { s with seq := q }) (.of_fields id rfl rfl) (sessionStep_runBusCommand c p _)
  · exact sessionStep_runOps k lines s

/-- Every instruction but NEW keeps the fault bit and writes the latches by `SetPin` alone. -/
theorem sessionStep_exec {i : Instr} {s t : State} (hi : i ≠ .new) (h : exec i s = .next t) : SessionStep s t := by
  cases execResult_of_exec h with
  | refused => exact .of_fields id rfl rfl
  | denied => exact absurd rfl hi
  | opened => exact absurd rfl hi
  | packed => exact .of_fields id rfl rfl
  | ran hl =>
    obtain ⟨p, hs⟩ := hl.start
    exact (SessionStep.of_fields (by rw [hs]; exact id) (by rw [hs]) (by rw [hs])).trans (sessionStep_runOps _ _ _)
  | sent => exact sessionStep_runBusCommand _ _ s

end Sys2Proof.Machine
end

section
/-! PROOFS. What a request that runs its lines comes to, begun or resumed: the one case distinction that the statements
on STATE, STATUS and the invariant rest on. -/

namespace Sys2Proof.Machine

/-- The STATE a transport fault leaves request `k` in: a RELEASE gives up the session, every other is frozen where it
was (60_exceptions.md R222, 42_controller.md R149). -/
def faultState : RequestKind → Option PanelState
  | .release => some .absent
  | k => waitingState k

/-- What request `k`, begun or resumed in `s`, comes to in `t`: it ends with OK, waits, or ends by an error; and from a
state with its panel powered where it must be, every request but RELEASE leaves POWER_L and RESET_L High. -/
structure ComesTo (k : RequestKind) (s t : State) : Prop where
  ends  : finishedIn (endState k) s t ∨ waitsIn k s t ∨ (∃ p, faultState k = some p ∧ faultedIn p s t) ∨
    (k = .awaitBusyT ∧ timedOut s t)
  power : panelPowered s = true → k ≠ .release → t.latches.power = .high ∧ t.latches.reset = .high

/-- Request `k`, begun or resumed in `s`, is underway in `u`. -/
structure Underway (k : RequestKind) (s u : State) : Prop where
  fault     : u.fault = s.fault
  status    : u.status = s.status
  responses : u.responses = s.responses
  power     : panelPowered s = true → k ≠ .release → u.latches.power = .high ∧ u.latches.reset = .high

/-! ## A request underway -/

theorem Underway.step {k : RequestKind} {s u v : State} (h : Underway k s u) (g : PortStep u v) : Underway k s v :=
  ⟨g.fault.trans h.fault, g.status.trans h.status, g.responses.trans h.responses, by
    rw [g.power, g.reset]; exact h.power⟩

theorem Underway.finishes {k : RequestKind} {s u : State} (h : Underway k s u) :
    ComesTo k s (runOps k [.finish (endState k)] u) :=
  ⟨.inl ⟨rfl, rfl, h.fault, rfl, by simp [h.responses]⟩, h.power⟩

theorem Underway.waits {k : RequestKind} {s u : State} (h : Underway k s u) (hp : waitingState k = some u.panel)
    (d : Nat) : ComesTo k s { u with deadline := d, seq := some { request := k, rest := waitingLines k } } :=
  ⟨.inr (.inl ⟨rfl, hp.symm, h.fault, h.status, h.responses⟩), h.power⟩

theorem Underway.faults {k : RequestKind} {s u : State} (h : Underway k s u) (hp : waitingState k = some u.panel) :
    ComesTo k s (raiseError (some k) .transportFault u) := by
  have hf : faultState k = some (if some k = some .release then PanelState.absent else u.panel) := by
    cases k with
    | release => rfl
    | _ => exact hp
  exact ⟨.inr (.inr (.inl ⟨_, hf, rfl, rfl, rfl, rfl, by simp [raiseError, endRequest, h.responses]⟩)), h.power⟩

theorem Underway.timesOut {s u : State} (h : Underway .awaitBusyT s u) :
    ComesTo .awaitBusyT s (raiseError (some .awaitBusyT) .busyTimeout u) :=
  ⟨.inr (.inr (.inr ⟨rfl, rfl, rfl, h.fault, rfl, by simp [raiseError, endRequest, h.responses]⟩)), h.power⟩

/-! ## The panel's power -/

theorem latches_of_panelPowered {s : State} (h : panelPowered s = true)
    (hp : s.panel = .initializing ∨ s.panel = .idle ∨ s.panel = .busy) :
    s.latches.power = .high ∧ s.latches.reset = .high := by
  rcases hp with hp | hp | hp <;> simpa [panelPowered, hp] using h

/-- Every wait but RELEASE's is one with the panel powered. -/
theorem waitingState_powered {k : RequestKind} {p : PanelState} (hw : waitingState k = some p) (hk : k ≠ .release) :
    p = .initializing ∨ p = .busy := by
  cases k <;> simp_all [waitingState]

/-! ## The busy wait and what follows it -/

/-- The requests that wait unbounded and then end in Idle: ON, DISPLAY, CLEAR, AWAIT_BUSY. -/
def WaitsForIdle (k : RequestKind) : Prop :=
  waitingLines k = [.sleep 50, .awaitBusy, .finish .idle] ∧ endState k = .idle

/-- A wait for Idle goes on to the end, waits, or faults. -/
theorem Underway.comesToIdle {k : RequestKind} {s u r : State} (hk : WaitsForIdle k) (h : Underway k s u)
    (hp : waitingState k = some u.panel)
    (hr : r = runOps k [.finish .idle] u ∨
      r = { u with seq := some { request := k, rest := .sleep tPoll :: .awaitBusy :: [.finish .idle] } } ∨
      r = raiseError (some k) .transportFault u) : ComesTo k s r := by
  obtain ⟨hlines, hend⟩ := hk
  rcases hr with rfl | rfl | rfl
  · rw [← hend]; exact h.finishes
  · have hw := h.waits hp u.deadline
    rw [hlines] at hw
    exact hw
  · exact h.faults hp

/-- The wait of RELEASE goes on to OffSequence's end, waits, or faults. -/
theorem Underway.comesToAbsent {s u r : State} (h : Underway .release s u) (hp : u.panel = .shuttingDown)
    (hr : r = runOps .release [.sleep tOff, .setPin .power .low, .enter .off, .finish .absent] u ∨
      r = { u with seq := some { request := .release, rest := .sleep tPoll :: .awaitBusy ::
        [.sleep tOff, .setPin .power .low, .enter .off, .finish .absent] } } ∨
      r = raiseError (some .release) .transportFault u) : ComesTo .release s r := by
  have hw : waitingState .release = some u.panel := by rw [hp]; rfl
  rcases hr with rfl | rfl | rfl
  · have h' : Underway .release s { setPin .power .low (sleepFor tOff u) with panel := .off } :=
      ⟨h.fault, h.status, h.responses, fun _ hk => absurd rfl hk⟩
    exact h'.finishes
  · exact h.waits hw u.deadline
  · exact h.faults hw

/-! ## Requests begun -/

/-- `s` after ON's power-up and reset pulse, in Initializing (42_controller.md R142, R143). -/
def afterResetPulse (s : State) : State :=
  { sleepFor tRstH2 (setPin .reset .high (sleepFor tRstL (setPin .reset .low (sleepFor tRstH1
      (setPin .reset .high (setPin .power .high { s with panel := .poweringOn })))))) with panel := .initializing }

theorem runOps_onLines (p : Params) (s : State) :
    runOps .on (onLines p) s =
      runOps .on (sendScript (initFrameScript p) ++ .awaitBusy :: [.finish .idle]) (afterResetPulse s) := by
  rw [← initScript_eq]
  simp [onLines, resetPulse, afterResetPulse]

theorem comesTo_onLines (p : Params) (s : State) : ComesTo .on s (runOps .on (onLines p) s) := by
  obtain ⟨u, hu, h⟩ := runOps_script_await .on (initFrameScript p) [.finish .idle] (afterResetPulse s)
  have h₀ : Underway .on s (afterResetPulse s) := ⟨rfl, rfl, rfl, fun _ _ => ⟨rfl, rfl⟩⟩
  rw [runOps_onLines]
  exact (h₀.step hu).comesToIdle ⟨rfl, rfl⟩ (by rw [hu.panel]; rfl) h

/-- `STATE <- Busy` from Idle. -/
theorem underway_busy {k : RequestKind} {s : State} (hi : s.panel = .idle) :
    Underway k s { s with panel := .busy } :=
  ⟨rfl, rfl, rfl, fun h _ => latches_of_panelPowered (s := s) h (.inr (.inl hi))⟩

theorem comesTo_refresh {k : RequestKind} (hk : WaitsForIdle k) (hw : waitingState k = some .busy) (a b : List Byte)
    {s : State} (hi : s.panel = .idle) :
    ComesTo k s
      (runOps k ([.enter .busy, .send 0x10 a, .send 0x13 b] ++ turnOnDisplay ++ [.finish .idle]) s) := by
  obtain ⟨u, hu, h⟩ := runOps_refresh k a b s
  exact ((underway_busy hi).step hu).comesToIdle hk (by rw [hu.panel, hw]) h

theorem comesTo_awaitBusyLines {s : State} (hi : s.panel = .idle) :
    ComesTo .awaitBusy s (runOps .awaitBusy awaitBusyLines s) := by
  obtain ⟨u, hu, h⟩ := runOps_awaitBusy .awaitBusy [.finish .idle] { s with panel := .busy }
  exact ((underway_busy hi).step hu).comesToIdle ⟨rfl, rfl⟩ (by rw [hu.panel]; rfl) h

theorem comesTo_awaitBusyTLines (d : Nat) {s : State} (hi : s.panel = .idle) :
    ComesTo .awaitBusyT s (runOps .awaitBusyT (awaitBusyTLines d) s) := by
  obtain ⟨u, hu, h⟩ := runOps_awaitTimed .awaitBusyT d [.finish .idle] { s with panel := .busy }
  have hb := (underway_busy (k := .awaitBusyT) hi).step hu
  have hw : waitingState .awaitBusyT = some u.panel := by rw [hu.panel]; rfl
  rw [awaitBusyTLines, runOps_enter]
  rcases h with h | ⟨dl, h⟩ | h <;> rw [h]
  · exact hb.finishes
  · exact hb.waits hw dl
  · exact hb.faults hw

theorem comesTo_releaseLines (p : Params) (s : State) : ComesTo .release s (runOps .release (releaseLines p) s) := by
  obtain ⟨u, hu, h⟩ := runOps_script_await .release p.shutdownSequence
    [.sleep tOff, .setPin .power .low, .enter .off, .finish .absent] { s with panel := .shuttingDown }
  have h₀ : Underway .release s { s with panel := .shuttingDown } := ⟨rfl, rfl, rfl, fun _ hk => absurd rfl hk⟩
  have he : runOps .release (releaseLines p) s = runOps .release (sendScript p.shutdownSequence ++ .awaitBusy ::
      [.sleep tOff, .setPin .power .low, .enter .off, .finish .absent]) { s with panel := .shuttingDown } := by
    simp [releaseLines, offSequence]
  rw [he]
  exact (h₀.step hu).comesToAbsent hu.panel h

/-- ComesTo speaks of no buffer and no clock. -/
theorem ComesTo.of_start {k : RequestKind} {s t : State} {m : Memory} {p : Platform}
    (h : ComesTo k { s with devbuf := m, platform := p } t) : ComesTo k s t :=
  ⟨h.ends, h.power⟩

/-- A request whose lines an instruction runs comes to one of its ends. -/
theorem RunsLines.comesTo {s s₀ : State} {i : Instr} {k : RequestKind} {lines : List SeqOp}
    (h : RunsLines s i k lines s₀) : ComesTo k s (runOps k lines s₀) := by
  cases h with
  | on => exact comesTo_onLines s.params s
  | display img w h idle sound => exact .of_start (comesTo_refresh ⟨rfl, rfl⟩ rfl _ _ idle)
  | clear idle sound => exact comesTo_refresh ⟨rfl, rfl⟩ rfl _ _ idle
  | release => exact comesTo_releaseLines s.params s
  | awaitBusy idle sound => exact comesTo_awaitBusyLines idle
  | awaitBusyT tmo idle sound => exact .of_start (comesTo_awaitBusyTLines _ idle)

/-! ## Requests resumed -/

/-- A waiting request is underway. -/
theorem underway_waiting {k : RequestKind} {s : State} (hw : waitingState k = some s.panel) :
    Underway k s (sleepFor 50 s) := by
  refine ⟨rfl, rfl, rfl, fun h hk => latches_of_panelPowered h ?_⟩
  rcases waitingState_powered hw hk with hp | hp
  · exact .inl hp
  · exact .inr (.inr hp)

/-- A request resumed at its busy wait comes to one of its ends. -/
theorem comesTo_waitingLines {k : RequestKind} {s : State} (hw : waitingState k = some s.panel) :
    ComesTo k s (runOps k (waitingLines k) s) := by
  have h₀ := underway_waiting hw
  have idle (hk : WaitsForIdle k) : ComesTo k s (runOps k (waitingLines k) s) := by
    obtain ⟨u, hu, h⟩ := runOps_awaitBusy k [.finish .idle] (sleepFor 50 s)
    rw [hk.1]
    exact (h₀.step hu).comesToIdle hk (by rw [hu.panel]; exact hw) h
  cases k with
  | new => cases hw
  | pack => cases hw
  | on => exact idle ⟨rfl, rfl⟩
  | display => exact idle ⟨rfl, rfl⟩
  | clear => exact idle ⟨rfl, rfl⟩
  | awaitBusy => exact idle ⟨rfl, rfl⟩
  | release =>
    obtain ⟨u, hu, h⟩ := runOps_awaitBusy .release
      [.sleep tOff, .setPin .power .low, .enter .off, .finish .absent] (sleepFor 50 s)
    exact (h₀.step hu).comesToAbsent (by rw [hu.panel]; exact (Option.some.inj hw).symm) h
  | awaitBusyT =>
    obtain ⟨u, hu, h⟩ := runOps_pollTimed .awaitBusyT [.finish .idle] (sleepFor 50 s)
    have hb := h₀.step hu
    have hp : waitingState .awaitBusyT = some u.panel := by rw [hu.panel]; exact hw
    rw [waitingLines, runOps_sleep]
    rcases h with h | h | h | h <;> rw [h]
    · exact hb.finishes
    · exact hb.waits hp u.deadline
    · exact hb.timesOut
    · exact hb.faults hp

/-! ## A step from a legal state -/

theorem waiting_of_sessionLegal {s : State} {pos : Position} (hs : s.seq = some pos) (h : sessionLegal s = true) :
    waitingState pos.request = some s.panel ∧ pos.rest = waitingLines pos.request ∧
    (s.fault.f = true → pos.request = .release) := by
  simp only [sessionLegal, hs, Bool.and_eq_true, Bool.or_eq_true, beq_iff_eq, Bool.not_eq_true'] at h
  obtain ⟨⟨hw, hr⟩, hf⟩ := h
  exact ⟨hw, hr, fun ht => hf.resolve_left (by simp [ht])⟩

/-- No request waits with a bus command to send. -/
theorem waitingLines_ne_send (k : RequestKind) (c : Byte) (p : List Byte) (rest : List SeqOp) :
    waitingLines k ≠ .send c p :: rest := by
  cases k <;> simp [waitingLines]

/-- A step from a legal state: nothing to do; the offered request, refused as reserved or executed; the waiting
request resumed. -/
theorem step_legal {s t : State} (hl : sessionLegal s = true) (h : step s = .next t) :
    (s.seq = none ∧ s.requests = [] ∧ t = s) ∨
    (∃ more, s.seq = none ∧ t = writeStatus .invalidRequest { s with requests := more }) ∨
    (∃ more r i, s.seq = none ∧ decodeRequest r = some i ∧ ExecResult { s with requests := more } i t) ∨
    (∃ k, waitingState k = some s.panel ∧ (s.fault.f = true → k = .release) ∧
      t = runOps k (waitingLines k) s) := by
  rcases step_cases s with ⟨hs, hr, g⟩ | ⟨r, more, hs, -, -, g⟩ | ⟨r, more, i, hs, -, hd, g⟩ |
    ⟨pos, c, p, rest, hs, hsend, -⟩ | ⟨pos, hs, g⟩
  · rw [g] at h; cases h; exact .inl ⟨hs, hr, rfl⟩
  · rw [g] at h; cases h; exact .inr (.inl ⟨more, hs, rfl⟩)
  · rw [g] at h; exact .inr (.inr (.inl ⟨more, r, i, hs, hd, execResult_of_exec h⟩))
  · obtain ⟨-, hrest, -⟩ := waiting_of_sessionLegal hs hl
    exact absurd (hrest.symm.trans hsend) (waitingLines_ne_send _ _ _ _)
  · obtain ⟨hw, hrest, hf⟩ := waiting_of_sessionLegal hs hl
    rw [g, hrest] at h; cases h; exact .inr (.inr (.inr ⟨_, hw, hf, rfl⟩))

end Sys2Proof.Machine
end

section
/-! PROOFS. The statements of 10_state.md. -/

namespace Sys2Proof.Machine

/-! ## The invariant of the block -/

/-- Every request that comes to one of its ends keeps FAULT coherent: it leaves FAULT or records a transport fault. -/
theorem ComesTo.faultCoherent {k : RequestKind} {s t : State} (h : ComesTo k s t) (hc : faultCoherent s = true) :
    faultCoherent t = true := by
  have kept (hf : t.fault = s.fault) : Machine.faultCoherent t = true := by
    rw [Machine.faultCoherent, hf]; exact hc
  rcases h.ends with ⟨-, -, hf, -⟩ | ⟨-, -, hf, -⟩ | ⟨p, -, -, -, hf, -⟩ | ⟨-, -, -, hf, -⟩
  · exact kept hf
  · exact kept hf
  · rw [Machine.faultCoherent, hf]; rfl
  · exact kept hf

/-- With a fault at the start in RELEASE alone, STATE is legal at each of a request's ends. -/
theorem ComesTo.sessionLegal {k : RequestKind} {s t : State} (h : ComesTo k s t)
    (hf : s.fault.f = true → k = .release) : sessionLegal t = true := by
  rcases h.ends with ⟨hseq, hp, ht, -⟩ | ⟨hseq, hp, ht, -⟩ | ⟨p, hk, hseq, hp, ht, -⟩ | ⟨rfl, hseq, hp, ht, -⟩
  · cases k <;> simp_all [Machine.sessionLegal, endState]
  · cases k <;> simp_all [Machine.sessionLegal, waitingState]
  · cases k <;> cases hk <;> simp [Machine.sessionLegal, hseq, hp, ht]
  · simp_all [Machine.sessionLegal]

theorem panelPowered_of_latches {s : State} (h : s.latches.power = .high ∧ s.latches.reset = .high) :
    panelPowered s = true := by
  cases hp : s.panel <;> simp [panelPowered, hp, h]

/-- Where a request that runs lines leaves STATE. -/
theorem ComesTo.panel {k : RequestKind} {s t : State} (h : ComesTo k s t) :
    t.panel = endState k ∨ waitingState k = some t.panel ∨ faultState k = some t.panel := by
  rcases h.ends with ⟨-, hp, -⟩ | ⟨-, hp, -⟩ | ⟨p, hk, -, hp, -⟩ | ⟨rfl, -, hp, -⟩
  · exact .inl hp
  · exact .inr (.inl hp.symm)
  · exact .inr (.inr (by rw [hp]; exact hk))
  · exact .inl hp

theorem ComesTo.panel_release {s t : State} (h : ComesTo .release s t) :
    t.panel = .shuttingDown ∨ t.panel = .absent := by
  rcases h.panel with hp | hp | hp
  · exact .inr hp
  · exact .inl (Option.some.inj hp).symm
  · exact .inr (Option.some.inj hp).symm

/-- RELEASE ends where the panel need not be powered; every other request leaves it powered. -/
theorem ComesTo.panelPowered {k : RequestKind} {s t : State} (h : ComesTo k s t) (hp : panelPowered s = true) :
    panelPowered t = true := by
  by_cases hk : k = .release
  · subst hk
    rcases h.panel_release with hr | hr <;> simp [Machine.panelPowered, hr]
  · exact panelPowered_of_latches (h.power hp hk)

/-- A trace grown by framed events stays framed. -/
theorem LineStep.traceFramed {s t : State} (h : LineStep s t) (hs : traceFramed s = true) : traceFramed t = true := by
  obtain ⟨evs, he, hf⟩ := h.trace
  rw [Machine.traceFramed, he]
  exact framed_append hs hf

theorem BlockInv.devbuf_wf {s : State} (h : BlockInv s) : s.devbuf.wf = true := by
  obtain ⟨hm, -⟩ := h
  exact hm

theorem BlockInv.sessionLegal {s : State} (h : BlockInv s) : sessionLegal s = true := by
  obtain ⟨-, -, hl, -, -⟩ := h
  exact hl

/-- The invariant through the lines of a request, begun or resumed. -/
theorem blockInv_runOps {k : RequestKind} {ops : List SeqOp} {s s₀ : State} (hs : BlockInv s)
    (hf : s.fault.f = true → k = .release) (hm : s₀.devbuf.wf = true) (ht : s₀.trace = s.trace)
    (h : ComesTo k s (runOps k ops s₀)) : BlockInv (runOps k ops s₀) := by
  obtain ⟨-, hcoh, -, hpow, htr⟩ := hs
  have hl := lineStep_runOps k ops s₀
  have htr₀ : traceFramed s₀ = true := by rw [traceFramed, ht]; exact htr
  exact ⟨by rw [hl.devbuf]; exact hm, h.faultCoherent hcoh, h.sessionLegal hf, h.panelPowered hpow,
    hl.traceFramed htr₀⟩

/-- A request that runs lines starts without a fault, unless it is RELEASE. -/
theorem RunsLines.release_of_fault {s s₀ : State} {i : Instr} {k : RequestKind} {lines : List SeqOp}
    (h : RunsLines s i k lines s₀) (hf : s.fault.f = true) : k = .release := by
  cases h <;> simp_all

theorem RunsLines.devbuf_wf {s s₀ : State} {i : Instr} {k : RequestKind} {lines : List SeqOp}
    (h : RunsLines s i k lines s₀) (hm : s.devbuf.wf = true) : s₀.devbuf.wf = true := by
  rcases h.devbuf with hd | ⟨img, -, -, -, hd⟩ <;> rw [hd]
  · exact hm
  · exact wf_packPixels img _ hm

theorem RunsLines.trace {s s₀ : State} {i : Instr} {k : RequestKind} {lines : List SeqOp}
    (h : RunsLines s i k lines s₀) : s₀.trace = s.trace := by
  obtain ⟨p, hs⟩ := h.start
  rw [hs]

/-- The acquisition answer changes only the platform. -/
theorem blockInv_nextAcquire {s : State} (hs : BlockInv s) : BlockInv (nextAcquire s).2 := by
  simpa [BlockInv, faultCoherent, sessionLegal, panelPowered, traceFramed] using hs

/-- STATUS and the responses are not in the invariant. -/
theorem blockInv_writeStatus {s : State} (e : Status) (hs : BlockInv s) : BlockInv (writeStatus e s) := hs

theorem blockInv_devbuf {s : State} {m : Memory} (hs : BlockInv s) (hm : m.wf = true) :
    BlockInv { s with devbuf := m } := by
  obtain ⟨-, hrest⟩ := hs
  exact ⟨hm, hrest⟩

/-- A session newly opened is in Off without a fault. -/
theorem blockInv_opened {s : State} (levels : Latches) (hseq : s.seq = none) (hs : BlockInv s) :
    BlockInv (clearFault { s with latches := levels, panel := .off }) := by
  obtain ⟨hm, -, -, -, htr⟩ := hs
  exact ⟨hm, rfl, by simp [sessionLegal, hseq], rfl, htr⟩

/-- A host request keeps the invariant. -/
theorem blockInv_execResult {i : Instr} {s t : State} (hs : BlockInv s) (hseq : s.seq = none)
    (hi : ∀ c p, encode i ≠ .command c p) (h : ExecResult s i t) : BlockInv t := by
  cases h with
  | refused _ e => exact blockInv_writeStatus e hs
  | denied => exact blockInv_writeStatus _ (blockInv_nextAcquire hs)
  | opened levels absent granted =>
    exact blockInv_writeStatus _ (blockInv_opened levels (by simpa using hseq) (blockInv_nextAcquire hs))
  | packed img w h => exact blockInv_writeStatus _ (blockInv_devbuf hs (wf_packPixels img _ hs.devbuf_wf))
  | ran hl => exact blockInv_runOps hs hl.release_of_fault (hl.devbuf_wf hs.devbuf_wf) hl.trace hl.comesTo
  | sent command => exact absurd command (hi _ _)

/-- Settles O39: a host request starts between requests and comes to one of its ends; a waiting request is resumed at
its wait and comes to one of them too. -/
theorem stepKeepsInv : Obligations.StepKeepsInv := by
  intro s t hs h
  rcases step_legal hs.sessionLegal h with ⟨-, -, rfl⟩ | ⟨more, -, rfl⟩ | ⟨more, r, i, hseq, hd, hr⟩ | ⟨k, hw, hf, rfl⟩
  · exact hs
  · exact blockInv_writeStatus _ hs
  · exact blockInv_execResult (s := { s with requests := more }) hs hseq (encode_ne_command_of_decodeRequest hd) hr
  · exact blockInv_runOps hs hf hs.devbuf_wf rfl (comesTo_waitingLines hw)

/-- Settles O38: nothing has happened at power-up. -/
theorem invHoldsAtReset : Obligations.InvHoldsAtReset := ⟨rfl, rfl, rfl, rfl, rfl⟩

/-! ## What no instruction writes -/

theorem params_of_exec {i : Instr} {s t : State} (h : exec i s = .next t) : t.params = s.params := by
  cases execResult_of_exec h with
  | refused => rfl
  | denied => simp
  | opened => simp
  | packed => rfl
  | ran hl =>
    obtain ⟨p, hs⟩ := hl.start
    rw [(lineStep_runOps _ _ _).params, hs]
  | sent => exact (lineStep_runBusCommand _ _ _).params

/-- Settles O40: the one part of a step that is not lines or a bus command is `exec` of an offered request. -/
theorem parametersAreNeverWritten : Obligations.ParametersAreNeverWritten := by
  refine ⟨fun _ _ _ => params_of_exec, fun s t h => ?_⟩
  by_cases hs : s.seq = none
  · rcases step_cases s with ⟨-, -, g⟩ | ⟨r, more, -, -, -, g⟩ | ⟨r, more, i, -, -, -, g⟩ | ⟨pos, c, p, rest, hn, -⟩ |
      ⟨pos, hn, -⟩
    · rw [g] at h; cases h; rfl
    · rw [g] at h; cases h; rfl
    · rw [g] at h; exact params_of_exec (s := { s with requests := more }) h
    · rw [hs] at hn; cases hn
    · rw [hs] at hn; cases hn
  · exact (lineStep_step hs h).params

/-- Settles O41: PACK and DISPLAY start from the packed image, and no line writes DEVBUF. -/
theorem devbufWrittenOnlyByPack : Obligations.DevbufWrittenOnlyByPack := by
  refine ⟨fun i s t h => ?_, fun s t hs h => (lineStep_step hs h).devbuf⟩
  cases execResult_of_exec h with
  | refused => exact .inl rfl
  | denied => exact .inl (by simp)
  | opened => exact .inl (by simp)
  | packed img hw hh => exact .inr ⟨img, .inl rfl, hw, hh, rfl⟩
  | ran hl =>
    rw [(lineStep_runOps _ _ _).devbuf]
    rcases hl.devbuf with hd | ⟨img, hi, w, h, hd⟩
    · exact .inl hd
    · exact .inr ⟨img, .inr hi, w, h, hd⟩
  | sent => exact .inl (lineStep_runBusCommand _ _ _).devbuf

/-! ## FAULT, STATUS and the latches -/

/-- Settles O42: every line keeps the bit, and of the ways NEW can go only the grant clears it. -/
theorem faultStaysUntilNewSession : Obligations.FaultStaysUntilNewSession := by
  refine ⟨fun i s t h hf => ?_, fun s t hs h => (sessionStep_step hs h).fault⟩
  by_cases hi : i = .new
  · subst hi
    cases execResult_of_exec h with
    | refused => exact .inl hf
    | denied => exact .inl (by simpa using hf)
    | opened levels absent granted => exact .inr ⟨rfl, absent, rfl, rfl⟩
    | ran hl => cases hl
    | sent command => cases command
  · exact .inl ((sessionStep_exec hi h).fault hf)

/-- From `s` to `t` a request is left running with STATUS and the responses unwritten, or has ended with one response,
its STATUS. -/
def StatusOnceAtEnd (s t : State) : Prop :=
  (t.seq ≠ none ∧ t.status = s.status ∧ t.responses = s.responses) ∨
  (t.seq = none ∧ t.responses = s.responses ++ [t.status])

theorem ComesTo.statusOnce {k : RequestKind} {s t : State} (h : ComesTo k s t) : StatusOnceAtEnd s t := by
  rcases h.ends with ⟨hseq, -, -, hst, hr⟩ | ⟨hseq, -, -, hst, hr⟩ | ⟨p, -, hseq, -, -, hst, hr⟩ |
    ⟨-, hseq, -, -, hst, hr⟩
  · exact .inr ⟨hseq, by rw [hst]; exact hr⟩
  · exact .inl ⟨by simp [hseq], hst, hr⟩
  · exact .inr ⟨hseq, by rw [hst]; exact hr⟩
  · exact .inr ⟨hseq, by rw [hst]; exact hr⟩

theorem ExecResult.statusOnce {i : Instr} {s t : State} (hseq : s.seq = none)
    (hi : ∀ c p, encode i ≠ .command c p) (h : ExecResult s i t) : StatusOnceAtEnd s t := by
  cases h with
  | refused => exact .inr ⟨hseq, rfl⟩
  | denied => exact .inr (by simp [hseq])
  | opened => exact .inr (by simp [hseq])
  | packed => exact .inr ⟨hseq, rfl⟩
  | ran hl => exact hl.comesTo.statusOnce
  | sent command => exact absurd command (hi _ _)

/-- Settles O43: a request offered or resumed comes to one of its ends, and each writes STATUS so. -/
theorem statusWrittenOnceAtTheEnd : Obligations.StatusWrittenOnceAtTheEnd := by
  intro s t hleg h
  have once (ho : StatusOnceAtEnd s t) : (t.seq ≠ none ∧ t.status = s.status ∧ t.responses = s.responses) ∨
      (t.seq = none ∧ t.responses = s.responses ++ [t.status]) ∨ (s.seq = none ∧ s.requests = [] ∧ t = s) :=
    ho.imp_right .inl
  rcases step_legal hleg h with hn | ⟨more, hseq, rfl⟩ | ⟨more, r, i, hseq, hd, hr⟩ | ⟨k, hw, -, rfl⟩
  · exact .inr (.inr hn)
  · exact once (.inr ⟨hseq, rfl⟩)
  · exact once (hr.statusOnce (s := { s with requests := more }) hseq (encode_ne_command_of_decodeRequest hd))
  · exact once (comesTo_waitingLines hw).statusOnce

/-- Settles O44: every line writes the latches by `SetPin` alone, and NEW draws them with a granted acquisition. -/
theorem latchesFollowSetPin : Obligations.LatchesFollowSetPin := by
  refine ⟨fun i s t hi h => (sessionStep_exec hi h).latches, fun s t hs h => (sessionStep_step hs h).latches,
    fun s t h => ?_, fun released s p hp => by simp [pinLevel, busHeld, hp]⟩
  cases execResult_of_exec h with
  | refused => exact .inl rfl
  | denied => exact .inl (by simp)
  | opened levels absent granted => exact .inr ⟨absent, granted⟩
  | ran hl => cases hl
  | sent command => cases command

/-! ## The transitions of STATE -/

/-- A request that runs in Busy leaves Idle as it is or takes it to Busy. -/
theorem ComesTo.panel_busy {k : RequestKind} {s t : State} (hw : waitingState k = some .busy) (hi : s.panel = .idle)
    (h : ComesTo k s t) : t.panel = s.panel ∨ (s.panel = .idle ∧ t.panel = .busy) := by
  have hk : endState k = .idle ∧ faultState k = some .busy := by
    cases k <;> simp_all [waitingState, endState, faultState]
  obtain ⟨he, hf⟩ := hk
  rcases h.panel with hp | hp | hp
  · exact .inl (by rw [hp, he, hi])
  · exact .inr ⟨hi, by rw [hw] at hp; exact (Option.some.inj hp).symm⟩
  · exact .inr ⟨hi, by rw [hf] at hp; exact (Option.some.inj hp).symm⟩

theorem panel_of_exec_new {s t : State} (h : exec .new s = .next t) :
    t.panel = s.panel ∨ (s.panel = .absent ∧ t.panel = .off) := by
  cases execResult_of_exec h with
  | refused => exact .inl rfl
  | denied => exact .inl (by simp)
  | opened levels absent granted => exact .inr ⟨absent, rfl⟩
  | ran hl => cases hl
  | sent command => cases command

theorem panel_of_exec_on {s t : State} (h : exec .on s = .next t) :
    t.panel = s.panel ∨ (s.panel = .off ∧ (t.panel = .initializing ∨ t.panel = .idle)) := by
  cases execResult_of_exec h with
  | refused => exact .inl rfl
  | ran hl =>
    have hc := hl.comesTo
    cases hl with
    | on off sound =>
      rcases hc.panel with hp | hp | hp
      · exact .inr ⟨off, .inr hp⟩
      · exact .inr ⟨off, .inl (Option.some.inj hp).symm⟩
      · exact .inr ⟨off, .inl (Option.some.inj hp).symm⟩
  | sent command => cases command

theorem panel_of_exec_busy {i : Instr} {img : Image} {tmo : BitVec 32} {s t : State}
    (hi : i ∈ [Instr.display img, .clear, .awaitBusy, .awaitBusyT tmo]) (h : exec i s = .next t) :
    t.panel = s.panel ∨ (s.panel = .idle ∧ t.panel = .busy) := by
  cases execResult_of_exec h with
  | refused => exact .inl rfl
  | denied => simp at hi
  | opened => simp at hi
  | packed => exact .inl rfl
  | ran hl =>
    have hc := hl.comesTo
    cases hl with
    | on => simp at hi
    | display img w h idle sound => exact hc.panel_busy rfl idle
    | clear idle sound => exact hc.panel_busy rfl idle
    | release => simp at hi
    | awaitBusy idle sound => exact hc.panel_busy rfl idle
    | awaitBusyT tmo idle sound => exact hc.panel_busy rfl idle
  | sent command =>
    simp only [List.mem_cons, List.not_mem_nil, or_false] at hi
    rcases hi with rfl | rfl | rfl | rfl <;> cases command

theorem panel_of_exec_release {s t : State} (h : exec .release s = .next t) :
    t.panel = s.panel ∨ (s.panel ≠ .absent ∧ (t.panel = .shuttingDown ∨ t.panel = .absent)) := by
  cases execResult_of_exec h with
  | refused => exact .inl rfl
  | ran hl =>
    have hc := hl.comesTo
    cases hl with
    | release held => exact .inr ⟨held, hc.panel_release⟩
  | sent command => cases command

theorem panel_of_exec_pack {img : Image} {s t : State} (h : exec (.pack img) s = .next t) : t.panel = s.panel := by
  cases execResult_of_exec h with
  | refused => rfl
  | packed => rfl
  | ran hl => cases hl
  | sent command => cases command

/-- Settles O48, request by request. -/
theorem stateChangesOnlyByItsRequests : Obligations.StateChangesOnlyByItsRequests := fun _ _ _ _ =>
  ⟨panel_of_exec_new, panel_of_exec_on, fun _ => panel_of_exec_busy, panel_of_exec_release, panel_of_exec_pack⟩

/-! ## Fetching, power-up and codes -/

theorem step_offered {s : State} {r : HostRequest} {more : List HostRequest} {i : Instr} (hs : s.seq = none)
    (hr : s.requests = r :: more) (hd : decodeRequest r = some i) :
    step s = exec i { s with requests := more } := by
  simp [step, fetch, hs, hr, hd]

/-- Settles O7, by the three branches of `fetch` it speaks of. -/
theorem stepRunsDecodedInstruction : Obligations.StepRunsDecodedInstruction := by
  refine ⟨fun s r more i hs hr hd => step_offered hs hr hd, fun s k c p rest i hs hd => ?_, fun s hs hr => ?_⟩
  · simp [step, fetch, hs, hd]
  · simp [step, fetch, hs, hr]

/-- Settles O45: the offered request is the first action. -/
theorem powerUpValues : Obligations.PowerUpValues :=
  ⟨rfl, rfl, rfl, rfl, rfl, fun _ _ hd => step_offered rfl rfl hd⟩

/-- Settles O46, code by code. -/
theorem codesOfStateAndStatus : Obligations.CodesOfStateAndStatus := ⟨rfl, rfl⟩

end Sys2Proof.Machine
end

section
/-! PROOFS. The statements of 20_memory.md: the packed buffer on the wire, and what a failed write delivers. -/

namespace Sys2Proof.Machine

/-! ## The bits of the packed buffer -/

/-- The mask of a pixel has the one bit that is `y mod 8` places from the most significant (40_bitpacker.md R104). -/
theorem getLsbD_pixelMask (y : Fin Config.height) {j : Nat} (hj : j < 8) :
    (pixelMask y).getLsbD (7 - j) = decide (j = y.val % 8) := by
  have shifted : ∀ r < 8, ∀ j < 8, (0x80#8 >>> r).getLsbD (7 - j) = decide (j = r) := by decide
  exact shifted _ (Nat.mod_lt _ (by decide)) j hj

/-- A row is a whole number of bytes, so byte and bit of a pixel are those of its scan position. -/
theorem pixelIndex_scan (x : Fin Config.width) (y : Fin Config.height) (i : Fin Config.bufLen) {j : Nat} (hj : j < 8) :
    (i = pixelIndex x y ∧ j = y.val % 8) ↔ 8 * i.val + j = (127 - x.val) * 80 + y.val := by
  rw [Fin.ext_iff]
  simp only [pixelIndex]
  omega

/-- Whether packing the pixel `(x, y)` leaves the bit at scan position `n` as it is. -/
def leavesBit (img : Image) (n : Nat) (y : Fin Config.height) (x : Fin Config.width) : Bool :=
  !(pixel img x.val y.val == .black && decide (n = (127 - x.val) * 80 + y.val))

theorem getLsbD_packPixel (img : Image) (y : Fin Config.height) (m : Memory) (x : Fin Config.width)
    (i : Fin Config.bufLen) {j : Nat} (hj : j < 8) (hm : m.wf = true) :
    (memRead (packPixel img y m x) i).getLsbD (7 - j) =
      ((memRead m i).getLsbD (7 - j) && leavesBit img (8 * i.val + j) y x) := by
  have hscan := pixelIndex_scan x y i hj
  rw [memRead_packPixel img y m x i hm]
  cases hp : pixel img x.val y.val with
  | white => simp [leavesBit, hp]
  | black =>
    by_cases hi : i = pixelIndex x y
    · have hn : 8 * i.val + j = (127 - x.val) * 80 + y.val ↔ j = y.val % 8 := by rw [← hscan]; simp [hi]
      rw [if_pos ⟨rfl, hi⟩, BitVec.getLsbD_and, BitVec.getLsbD_not, getLsbD_pixelMask y hj]
      simp [leavesBit, hp, hn, show 7 - j < 8 by omega]
    · have hn : 8 * i.val + j ≠ (127 - x.val) * 80 + y.val := fun h => hi (hscan.2 h).1
      simp [leavesBit, hp, hi, hn]

/-- Steps that each leave a bit alone or clear it leave it alone together when every one does. -/
theorem getLsbD_foldl {α : Type} (f : Memory → α → Memory) (keeps : α → Bool) (i : Fin Config.bufLen) (b : Nat)
    (hwf : ∀ m a, m.wf = true → (f m a).wf = true)
    (hf : ∀ m a, m.wf = true → (memRead (f m a) i).getLsbD b = ((memRead m i).getLsbD b && keeps a))
    (l : List α) (m : Memory) (hm : m.wf = true) :
    (memRead (l.foldl f m) i).getLsbD b = ((memRead m i).getLsbD b && l.all keeps) := by
  induction l generalizing m with
  | nil => simp
  | cons a l ih => rw [List.foldl_cons, ih _ (hwf m a hm), hf m a hm, List.all_cons, Bool.and_assoc]

theorem getLsbD_packRow (img : Image) (m : Memory) (y : Fin Config.height) (i : Fin Config.bufLen) {j : Nat}
    (hj : j < 8) (hm : m.wf = true) :
    (memRead (packRow img m y) i).getLsbD (7 - j) =
      ((memRead m i).getLsbD (7 - j) && (List.finRange Config.width).all (leavesBit img (8 * i.val + j) y)) :=
  getLsbD_foldl _ _ i _ (fun m x => wf_packPixel img y m x) (fun m x => getLsbD_packPixel img y m x i hj) _ m hm

/-- Of all the pixels, only the one at scan position `n` can clear the bit there, and it does so when it is BLACK. -/
theorem all_leavesBit (img : Image) {n : Nat} (hn : n < 10240) :
    ((List.finRange Config.height).all fun y => (List.finRange Config.width).all (leavesBit img n y)) =
      (pixel img (127 - n / 80) (n % 80) == .white) := by
  rw [Bool.eq_iff_iff]
  simp only [List.all_eq_true, List.mem_finRange, forall_const, beq_iff_eq]
  constructor
  · intro h
    have hxy := h ⟨n % 80, Nat.mod_lt _ (by decide)⟩ ⟨127 - n / 80, by simp only [Config.width]; omega⟩
    have hpos : n = (127 - (127 - n / 80)) * 80 + n % 80 := by omega
    cases hp : pixel img (127 - n / 80) (n % 80) with
    | white => rfl
    | black => simp [leavesBit, hp, ← hpos] at hxy
  · intro hw y x
    obtain ⟨hx, hy⟩ : x.val < 128 ∧ y.val < 80 := ⟨x.isLt, y.isLt⟩
    by_cases hpos : n = (127 - x.val) * 80 + y.val
    · rw [show 127 - n / 80 = x.val by omega, show n % 80 = y.val by omega] at hw
      simp [leavesBit, hw]
    · simp [leavesBit, hpos]

/-- The closed form of the packed buffer (40_bitpacker.md R108): the bit of a scan position is set when its pixel is
WHITE. -/
theorem getLsbD_packPixels (img : Image) {m : Memory} (hm : m.wf = true) (i : Fin Config.bufLen) {j : Nat}
    (hj : j < 8) :
    (memRead (packPixels img m) i).getLsbD (7 - j) =
      (pixel img (127 - (8 * i.val + j) / 80) ((8 * i.val + j) % 80) == .white) := by
  have hi := i.isLt
  have hset : (memRead (packInit m) i).getLsbD (7 - j) = true := by
    rw [memRead_packInit m hm i, show (0xFF : Byte) = BitVec.allOnes 8 from rfl, BitVec.getLsbD_allOnes]
    exact decide_eq_true (by omega)
  rw [packPixels, getLsbD_foldl _ _ i _ (fun m y => wf_packRow img m y) (fun m y => getLsbD_packRow img m y i hj) _ _
    (wf_packInit m hm), hset, Bool.true_and]
  exact all_leavesBit img (by simp only [Config.bufLen] at hi; omega)

/-! ## The wire -/

/-- Bit `n` on the wire is in byte `n div 8`, its most significant bit first (20_memory.md R54, R55). -/
theorem getElem?_wireBits (bytes : List Byte) (n : Nat) :
    (wireBits bytes)[n]? = bytes[n / 8]?.map (fun b => b.getLsbD (7 - n % 8)) := by
  induction bytes generalizing n with
  | nil => simp [wireBits]
  | cons b bytes ih =>
    rw [wireBits, List.flatMap_cons, ← wireBits, List.getElem?_append]
    by_cases hn : n < 8
    · simp [hn, Nat.div_eq_of_lt hn, Nat.mod_eq_of_lt hn]
    · obtain ⟨k, rfl⟩ := Nat.exists_eq_add_of_le (Nat.le_of_not_lt hn)
      simp [ih, Nat.add_div_left]

theorem getElem?_bufferBytes (m : Memory) (i : Fin Config.bufLen) : (bufferBytes m)[i.val]? = some (memRead m i) := by
  simp [bufferBytes]

/-- Settles O26: bit `n` on the wire is bit `n mod 8` of byte `n div 8`, which the closed form gives. -/
theorem wireCarriesPixelsInScanOrder : Obligations.WireCarriesPixelsInScanOrder := by
  intro img m n hm hn
  have hbyte := getElem?_bufferBytes (packPixels img m) ⟨n / 8, by simp only [Config.bufLen]; omega⟩
  rw [getElem?_wireBits, hbyte, Option.map_some, getLsbD_packPixels img hm _ (Nat.mod_lt _ (by decide))]
  simp only [Nat.div_add_mod]

/-! ## What a failed write delivers -/

/-- A failed write delivers just what a successful write of its first `n` bytes would have. -/
theorem dcStream_failed (dc : Level) (bytes : List Byte) (n : Nat) :
    dcStream dc [.spiWrite bytes (.err n)] = dcStream dc [.spiWrite (bytes.take n) .ok] := rfl

/-- Events that deliver the same bytes do so after any events before them. -/
theorem dcStream_append_congr {ys zs : List PortEvent} (h : ∀ dc, dcStream dc ys = dcStream dc zs)
    (xs : List PortEvent) (dc : Level) : dcStream dc (xs ++ ys) = dcStream dc (xs ++ zs) := by
  induction xs generalizing dc with
  | nil => exact h dc
  | cons e xs ih =>
    cases e with
    | setPin p l => cases p <;> exact ih _
    | spiWrite bytes r => cases r <;> simp [dcStream, ih]
    | readBusy l => exact ih dc
    | sleep ms => exact ih dc
    | now t => exact ih dc

/-- A write that the platform answers with an error delivers as many bytes as the platform says. -/
theorem spiWrite_err {bytes : List Byte} {s : State} {n : Nat} {spi : List SpiAnswer} {ds : List Nat}
    (hn : n ≤ bytes.length) (hq : s.platform.spi = .err :: spi) (hd : s.platform.delivered = n :: ds) :
    ∃ t, spiWrite bytes s = .fault t ∧ t.trace = s.trace ++ [.spiWrite bytes (.err n)] := by
  refine ⟨spiFail bytes (nextSpi s).2, by simp [spiWrite, nextSpi, hq, spiSuccess], ?_⟩
  simp [nextSpi, hq, nextDelivered, hd, hn]

/-! ## The trace only grows -/

theorem LineStep.trace_prefix {s t : State} (h : LineStep s t) : s.trace <+: t.trace := by
  obtain ⟨evs, he, -⟩ := h.trace
  exact ⟨evs, he.symm⟩

theorem trace_prefix_of_exec {i : Instr} {s t : State} (h : exec i s = .next t) : s.trace <+: t.trace := by
  cases execResult_of_exec h with
  | refused => exact List.prefix_rfl
  | denied => simp
  | opened => simp
  | packed => exact List.prefix_rfl
  | ran hl => rw [← hl.trace]; exact (lineStep_runOps _ _ _).trace_prefix
  | sent => exact (lineStep_runBusCommand _ _ _).trace_prefix

theorem trace_prefix_of_step {s t : State} (h : step s = .next t) : s.trace <+: t.trace := by
  rcases step_cases s with ⟨-, -, g⟩ | ⟨r, more, -, -, -, g⟩ | ⟨r, more, i, -, -, -, g⟩ | ⟨pos, c, p, rest, -, -, g⟩ |
    ⟨pos, -, g⟩ <;> rw [g] at h
  · cases h; exact List.prefix_rfl
  · cases h; exact List.prefix_rfl
  · exact trace_prefix_of_exec (s := { s with requests := more }) h
  · cases h; exact (lineStep_runBusCommand c p { s with seq := some { pos with rest := rest } }).trace_prefix
  · cases h; exact (lineStep_runOps _ _ s).trace_prefix

/-- A failed write stays in every longer trace. -/
theorem panelKnown_of_prefix {s t : State} (h : s.trace <+: t.trace) (hs : panelKnown s = false) :
    panelKnown t = false := by
  obtain ⟨evs, he⟩ := h
  simp only [panelKnown, Bool.not_eq_false'] at hs ⊢
  rw [← he, List.any_append, hs, Bool.true_or]

/-- Settles O54: the event of a failed write carries how many bytes it delivered, the platform's own answer, and no
step takes an event out of the trace. -/
theorem failedWriteDeliversAnyPrefix : Obligations.FailedWriteDeliversAnyPrefix := by
  refine ⟨fun bytes s t h => ?_, fun bytes s n spi ds hn hq hd => ?_,
    fun s t h => panelKnown_of_prefix (trace_prefix_of_step h)⟩
  · rcases spiWrite_cases bytes s with ⟨-, g⟩ | ⟨-, g⟩
    · rw [g] at h; cases h
    · rw [g] at h; cases h
      obtain ⟨n, p, hn, -, hs⟩ := spiFail_shape bytes (nextSpi s).2
      exact ⟨n, .spiWrite bytes (.err n), hn, by rw [hs, nextSpi_trace], rfl, fun dc => by simp [dcStream]⟩
  · obtain ⟨t, ht, htr⟩ := spiWrite_err hn hq hd
    exact ⟨t, ht, fun dc => by rw [htr]; exact dcStream_append_congr (fun dc => dcStream_failed dc bytes n) _ dc⟩

end Sys2Proof.Machine
end

section
/-! PROOFS. The statements of 30_encoding.md: decoder and encoder, the bus stream, host program lines, PACK_OUT. -/

namespace Sys2Proof.Machine

/-! ## Decoder and encoder -/

/-- Settles O1, constructor by constructor: the model's round-trip laws. -/
theorem decodeOfEncodeGivesInstruction : Obligations.DecodeOfEncodeGivesInstruction := fun i =>
  match i with
  | .new => Laws.RoundTrip.new
  | .on => Laws.RoundTrip.on
  | .display img => Laws.RoundTrip.display img
  | .clear => Laws.RoundTrip.clear
  | .release => Laws.RoundTrip.release
  | .awaitBusy => Laws.RoundTrip.awaitBusy
  | .awaitBusyT tmo => Laws.RoundTrip.awaitBusyT tmo
  | .pack img => Laws.RoundTrip.pack img
  | .busyQuery => Laws.RoundTrip.busyQuery
  | .displayRefresh => Laws.RoundTrip.displayRefresh
  | .writeBuffer1 data => Laws.RoundTrip.writeBuffer1 data
  | .writeBuffer2 data => Laws.RoundTrip.writeBuffer2 data
  | .lutW data => Laws.RoundTrip.lutW data
  | .lutB data => Laws.RoundTrip.lutB data
  | .powerSetting data => Laws.RoundTrip.powerSetting data
  | .chargePump data => Laws.RoundTrip.chargePump data
  | .lutOption data => Laws.RoundTrip.lutOption data
  | .clockFrequency data => Laws.RoundTrip.clockFrequency data
  | .vcomInterval data => Laws.RoundTrip.vcomInterval data
  | .gateSourceTiming data => Laws.RoundTrip.gateSourceTiming data
  | .resolution data => Laws.RoundTrip.resolution data
  | .vcomDc data => Laws.RoundTrip.vcomDc data
  | .powerSaving data => Laws.RoundTrip.powerSaving data
  | .powerOn => Laws.RoundTrip.powerOn
  | .powerOff data => Laws.RoundTrip.powerOff data
  | .deepSleep data => Laws.RoundTrip.deepSleep data

/-- Settles O2, by the three kinds of code R80 has: without data, with data of one fixed length, with any data. -/
theorem decodedCommandEncodesBack : Obligations.DecodedCommandEncodesBack := by
  intro c p i h
  unfold decodeCommand at h
  split at h
  case h_19 => cases h
  all_goals obtain rfl := byte_of_toNat ‹c.toNat = _›
  case h_1 | h_2 | h_16 =>
    obtain ⟨rfl, rfl⟩ : p = [] ∧ _ = i := by simpa using h
    exact ⟨rfl, rfl⟩
  case h_3 | h_4 | h_5 | h_6 =>
    obtain ⟨hp, rfl⟩ : p.length = _ ∧ _ = i := by simpa using h
    exact ⟨beq_iff_eq.2 hp, rfl⟩
  all_goals
    cases h
    exact ⟨rfl, rfl⟩

/-! ## Reserved OPs and unread fields (30_encoding.md R72) -/

theorem decodeRequest_reserved {r : HostRequest} (h : opField r.word = 0 ∨ 9 ≤ (opField r.word).toNat) :
    decodeRequest r = none := by
  have hop : (opField r.word).toNat = 0 ∨ 9 ≤ (opField r.word).toNat := h.imp_left fun h0 => by rw [h0]; rfl
  unfold decodeRequest
  split
  case h_9 => rfl
  all_goals omega

/-- A request decodes by its OP, its TMO where OP is AWAIT_BUSY_T, and its image where OP is DISPLAY or PACK. -/
theorem decodeRequest_congr {r r' : HostRequest} (hop : opField r.word = opField r'.word)
    (htmo : opField r.word = 0x07 → tmoField r.word = tmoField r'.word)
    (himg : opField r.word = 0x03 ∨ opField r.word = 0x08 → r.img = r'.img) : decodeRequest r = decodeRequest r' := by
  unfold decodeRequest
  rw [← hop]
  split
  case h_3 h => rw [himg (.inl (byte_of_toNat h))]
  case h_7 h => rw [htmo (byte_of_toNat h)]
  case h_8 h => rw [himg (.inr (byte_of_toNat h))]
  all_goals rfl

/-- Settles O4: a reserved OP takes the one branch of `fetch` that decodes to nothing, and `decodeRequest` reads no
other field than the three it names. -/
theorem reservedOpRefusedAndUnreadFieldsIgnored : Obligations.ReservedOpRefusedAndUnreadFieldsIgnored := by
  refine ⟨fun r more s hop hs hr => ?_, fun r r' hop htmo himg => ?_⟩
  · simp only [step, fetch, hs, hr, decodeRequest_reserved hop]
    rfl
  · refine decodeRequest_congr hop htmo.neg_resolve_left fun h => himg.resolve_left fun hn => ?_
    exact h.elim hn.1 hn.2

/-! ## The words of the spec's tables -/

/-- A word with OP 0x07 asks for the timed wait of its TMO (30_encoding.md R71, R73). -/
theorem decodeRequest_awaitBusyT {w : BitVec 40} {tmo : BitVec 32} (img : Image) (h : w = requestWord tmo 0x07) :
    decodeRequest { word := w, img := img } = some (.awaitBusyT tmo) := by
  simp [h, decodeRequest]

/-- A word with another OP stands for what its OP alone does, whatever its TMO. -/
theorem decodeRequest_anyTmo {w w' : BitVec 40} (img : Image) (hop : opField w = opField w')
    (h7 : opField w ≠ 0x07) : decodeRequest { word := w, img := img } = decodeRequest { word := w', img := img } :=
  decodeRequest_congr hop (fun h => absurd h h7) fun _ => rfl

/-- Settles O3: a word with TMO 0 and every code evaluate; a word with TMO set is read by its fields; and where R80 fixes
the length of the data, the decoder's check is the statement's condition. -/
theorem wordsOfTheSpecDecode : Obligations.WordsOfTheSpecDecode := by
  refine ⟨fun img => ⟨rfl, rfl, rfl, rfl, rfl, rfl, decodeRequest_awaitBusyT img rfl, decodeRequest_awaitBusyT img rfl,
    decodeRequest_awaitBusyT img rfl, decodeRequest_anyTmo (w' := 0x06) img rfl (by decide), rfl,
    decodeRequest_anyTmo (w' := 0x08) img rfl (by decide), rfl, rfl, rfl⟩, fun d =>
    ⟨rfl, rfl, rfl, rfl, rfl, rfl, rfl, rfl, rfl, rfl, rfl, ?_, ?_, ?_, ?_, ?_, ?_, ?_, rfl, rfl⟩⟩
  all_goals simp [decodeCommand]

/-! ## The bus stream (30_encoding.md R79) -/

/-- A command's frames put its code on the bus at DC low and its data at DC high, whatever level DC had. -/
theorem dcStream_frameEvents (dc : Level) (c : Byte) (p : List Byte) (rest : List PortEvent) :
    dcStream dc (frameEvents c p ++ rest) =
      (.low, c) :: (p.map (fun b => (.high, b)) ++ dcStream (dcAfter p) rest) := by
  cases p <;> rfl

theorem leadingData_data (p : List Byte) (rest : List (Level × Byte)) :
    leadingData (p.map (fun b => (.high, b)) ++ rest) = p ++ leadingData rest := by
  induction p with
  | nil => rfl
  | cons b p ih => simp [leadingData, ih]

theorem splitStream_data (p : List Byte) (rest : List (Level × Byte)) :
    splitStream (p.map (fun b => (.high, b)) ++ rest) = splitStream rest := by
  induction p with
  | nil => rfl
  | cons b p ih => exact ih

theorem scriptEvents_cons (e : Byte × List Byte) (cmds : Script) :
    scriptEvents (e :: cmds) = frameEvents e.1 e.2 ++ scriptEvents cmds := rfl

/-- The stream of sent commands begins with a code byte, so no data of an earlier command runs into it. -/
theorem leadingData_scriptEvents (dc : Level) (cmds : Script) : leadingData (dcStream dc (scriptEvents cmds)) = [] := by
  cases cmds with
  | nil => rfl
  | cons e cmds => rw [scriptEvents_cons, dcStream_frameEvents]; rfl

/-- Settles O5, by induction on the commands: the data after a code byte ends where the next command begins. -/
theorem streamSplitsIntoItsCommands : Obligations.StreamSplitsIntoItsCommands := by
  intro dc cmds
  induction cmds generalizing dc with
  | nil => rfl
  | cons e cmds ih =>
    rw [scriptEvents_cons, dcStream_frameEvents, splitStream, leadingData_data, splitStream_data, ih,
      leadingData_scriptEvents, List.append_nil]

/-! ## Host program lines (30_encoding.md R83) -/

/-- The characters of `hexDigits k n`. -/
def hexChars (k n : Nat) : List Char := (hexDigits k n).toList

theorem hexChars_eq (k n : Nat) : hexChars k n = (List.range k).map fun j => hexDigit (n / 16 ^ (k - 1 - j) % 16) := by
  rw [hexChars, hexDigits, String.toList_ofList]

@[simp] theorem length_hexChars (k n : Nat) : (hexChars k n).length = k := by simp [hexChars_eq]

/-- The digits of a number are those of its high part, then those of its low part. -/
theorem hexChars_add (k m n : Nat) : hexChars (k + m) n = hexChars k (n / 16 ^ m) ++ hexChars m n := by
  simp only [hexChars_eq, List.range_add, List.map_append, List.map_map]
  congr 1
  · refine List.map_congr_left fun j hj => ?_
    have hj := List.mem_range.1 hj
    rw [Nat.div_div_eq_div_mul, ← Nat.pow_add, show m + (k - 1 - j) = k + m - 1 - j by omega]
  · refine List.map_congr_left fun j _ => ?_
    rw [Function.comp_apply, show k + m - 1 - (k + j) = m - 1 - j by omega]

theorem hexDigitValue_hexDigit {d : Nat} (h : d < 16) : hexDigitValue (hexDigit d) = d := by
  have all : ∀ d < 16, hexDigitValue (hexDigit d) = d := by decide
  exact all d h

theorem hexValue_append_digit (l : List Char) (c : Char) : hexValue (l ++ [c]) = 16 * hexValue l + hexDigitValue c := by
  simp [hexValue]

/-- `k` hexadecimal digits of `n` read back as `n` modulo `16 ^ k`. -/
theorem hexValue_hexChars (k n : Nat) : hexValue (hexChars k n) = n % 16 ^ k := by
  induction k generalizing n with
  | zero => simp [hexChars_eq, hexValue, Nat.mod_one]
  | succ k ih =>
    have hlast : hexChars 1 n = [hexDigit (n % 16)] := by simp [hexChars_eq]
    rw [hexChars_add, hlast, hexValue_append_digit, ih, hexDigitValue_hexDigit (Nat.mod_lt _ (by decide)), pow_one,
      Nat.pow_succ', Nat.mod_mul, Nat.add_comm]

theorem toNat_opField (w : BitVec 40) : (opField w).toNat = w.toNat % 16 ^ 2 := by
  simp [opField]

theorem toNat_tmoField (w : BitVec 40) : (tmoField w).toNat = w.toNat / 16 ^ 2 % 16 ^ 8 := by
  simp [tmoField, Nat.shiftRight_eq_div_pow]

/-- A program line names a host request, never a bus command. -/
theorem encode_of_parseLine {l : AsmLine} {i : Instr} (h : parseLine l = some i) :
    i.WellFormed ∧ ∃ r, encode i = .request r := by
  unfold parseLine at h
  split at h
  case h_4 => cases h
  all_goals split_ifs at h <;> cases h <;> exact ⟨rfl, _, rfl⟩

theorem lineWord_of_parseLine {l : AsmLine} {i : Instr} {r : HostRequest} (h : parseLine l = some i)
    (he : encode i = .request r) : lineWord l = some (hexDigits 10 r.word.toNat) := by
  simp [lineWord, h, he]

/-- The ten digits of a line are eight of TMO and two of OP. -/
theorem lineWord_fields {l : AsmLine} {i : Instr} (h : parseLine l = some i) :
    ∃ r digits, encode i = .request r ∧ decodeRequest r = some i ∧
      lineWord l = some digits ∧ digits.toList.length = 10 ∧
      hexValue (digits.toList.take 8) = (tmoField r.word).toNat ∧
      hexValue (digits.toList.drop 8) = (opField r.word).toNat := by
  obtain ⟨hwf, r, he⟩ := encode_of_parseLine h
  have hd : decode (encode i) = some i := decodeOfEncodeGivesInstruction i hwf
  have hsplit : (hexDigits 10 r.word.toNat).toList = hexChars 8 (r.word.toNat / 16 ^ 2) ++ hexChars 2 r.word.toNat :=
    hexChars_add 8 2 _
  refine ⟨r, _, he, by rwa [he] at hd, lineWord_of_parseLine h he, length_hexChars 10 _, ?_, ?_⟩
  · rw [hsplit, List.take_left' (length_hexChars _ _), hexValue_hexChars, toNat_tmoField]
  · rw [hsplit, List.drop_left' (length_hexChars _ _), hexValue_hexChars, toNat_opField]

/-- Settles O6: the names by `parseLine`'s own branches, the digits by reading hexadecimal back. -/
theorem programLinesEncodeTheirRequest : Obligations.ProgramLinesEncodeTheirRequest := by
  refine ⟨by decide, by decide, by decide, by decide, by decide, ?_, ?_, ?_, by decide, fun _ _ => lineWord_fields⟩ <;>
    simp [parseLine]

/-! ## PACK_OUT (30_encoding.md R75) -/

theorem packOut_of_devbuf {s : State} {m : Memory} (h : s.devbuf = m) : packOut s = bufferBytes m :=
  congrArg bufferBytes h

theorem exec_pack_sized {img : Image} (s : State) (hw : img.w = 128) (hh : img.h = 80) :
    exec (.pack img) s = .next (writeStatus .ok { s with devbuf := packPixels img s.devbuf }) := by
  simp only [exec, execPack, prologue_pack, packImage_sized s.devbuf hw hh]

/-- DISPLAY of a 128 x 80 image past its guard runs its lines from the packed image. -/
theorem exec_display_sized {img : Image} {s : State} (hw : img.w = 128) (hh : img.h = 80) (hi : s.panel = .idle)
    (hf : s.fault.f = false) :
    exec (.display img) s = .next (runOps .display (displayLines s.params (bufferBytes (packPixels img s.devbuf)))
      { s with devbuf := packPixels img s.devbuf }) := by
  have hp : prologue .display s = none := by simp [prologue, hi, hf]
  simp only [exec, execDisplay, hp, packImage_sized s.devbuf hw hh]

/-- Settles O53: PACK_OUT is read off DEVBUF, which no line of a request writes. -/
theorem packOutMirrorsDevbuf : Obligations.PackOutMirrorsDevbuf := by
  refine ⟨fun s => ⟨length_bufferBytes _, getElem?_bufferBytes _⟩, fun s img hw hh => ⟨?_, fun hi hf => ?_⟩,
    fun i s t h => ?_, fun s t hs h => packOut_of_devbuf (lineStep_step hs h).devbuf⟩
  · exact ⟨_, exec_pack_sized s hw hh, rfl⟩
  · exact ⟨_, exec_display_sized hw hh hi hf, packOut_of_devbuf (lineStep_runOps _ _ _).devbuf⟩
  · cases execResult_of_exec h with
    | refused => exact .inl rfl
    | denied => exact .inl (packOut_of_devbuf (by simp))
    | opened => exact .inl (packOut_of_devbuf (by simp))
    | packed img hw hh => exact .inr ⟨img, .inl rfl, hw, hh, rfl⟩
    | ran hl =>
      rw [packOut_of_devbuf (lineStep_runOps _ _ _).devbuf]
      cases hl with
      | display img hw hh idle sound => exact .inr ⟨img, .inr ⟨rfl, idle, sound⟩, hw, hh, rfl⟩
      | _ => exact .inl rfl
    | sent => exact .inl (packOut_of_devbuf (lineStep_runBusCommand _ _ _).devbuf)

end Sys2Proof.Machine
end

section
/-! PROOFS. The statements of 40_bitpacker.md: what PACK writes, and the buffer it leaves. -/

namespace Sys2Proof.Machine

/-- Settles O21: PACK has no guard, and an image of the right size passes its only check. -/
theorem packWritesDevbufAlone : Obligations.PackWritesDevbufAlone :=
  fun s _ hw hh => exec_pack_sized s hw hh

/-! ## Equal bits, equal buffers -/

/-- Bytes whose bits agree, counted from the most significant, are equal. -/
theorem byte_eq_of_msbFirst {b c : Byte} (h : ∀ j < 8, b.getLsbD (7 - j) = c.getLsbD (7 - j)) : b = c := by
  refine BitVec.eq_of_getLsbD_eq fun k hk => ?_
  have hbit := h (7 - k) (by omega)
  rwa [show 7 - (7 - k) = k by omega] at hbit

theorem cellsRead_of_not_listed {a : Nat} {m : Memory} (h : ∀ c ∈ m, c.1 ≠ a) :
    cellsRead a m = Memory.unlisted := by
  induction m with
  | nil => rfl
  | cons c m ih =>
    rw [cellsRead, if_neg (h c List.mem_cons_self), ih fun d hd => h d (List.mem_cons_of_mem _ hd)]

/-- Canonical buffers that agree on DEVBUF's own indices are equal: beyond them neither lists anything. -/
theorem memory_eq_of_memRead {m n : Memory} (hm : m.wf = true) (hn : n.wf = true)
    (h : ∀ i, memRead m i = memRead n i) : m = n := by
  refine wf_ext hm hn fun a => ?_
  by_cases ha : a < Config.bufLen
  · exact h ⟨a, ha⟩
  · have beyond : ∀ {k : Memory}, k.wf = true → cellsRead a k = Memory.unlisted := fun hk =>
      cellsRead_of_not_listed fun c hc hca => ha (hca ▸ (((wf_iff _).1 hk).2 c hc).1)
    rw [beyond hm, beyond hn]

/-! ## The packed buffer (40_bitpacker.md R108) -/

/-- Settles O23: every bit of both buffers is given by the closed form, from pixels that agree. -/
theorem packDependsOnPixelsAlone : Obligations.PackDependsOnPixelsAlone := by
  intro img img' m m' hm hm' hpix
  refine memory_eq_of_memRead (wf_packPixels img m hm) (wf_packPixels img' m' hm') fun i => ?_
  refine byte_eq_of_msbFirst fun j hj => ?_
  rw [getLsbD_packPixels img hm i hj, getLsbD_packPixels img' hm' i hj,
    hpix _ _ (by omega) (Nat.mod_lt _ (by decide))]

/-- Settles O22: O23 for one image and two buffers, and the closed form. -/
theorem packHasItsClosedForm : Obligations.PackHasItsClosedForm := by
  intro s s' img hs hs' hw hh
  have hsame : packPixels img s.devbuf = packPixels img s'.devbuf :=
    packDependsOnPixelsAlone img img _ _ hs hs' fun _ _ _ _ => rfl
  refine ⟨_, _, exec_pack_sized s hw hh, exec_pack_sized s' hw hh, ?_, fun i j hj => ?_⟩
  · simpa only [writeStatus_devbuf] using hsame
  · rw [writeStatus_devbuf, getLsbD_packPixels img hs i hj, beq_iff_eq]

/-! ## Uniform images and single pixels (40_bitpacker.md R109, R110) -/

/-- An image of one colour packs to copies of the byte whose bits are all that colour's. -/
theorem bufferBytes_packPixels_uniform {img : Image} {m : Memory} {p : Pixel} {b : Byte} (hm : m.wf = true)
    (hb : ∀ j < 8, b.getLsbD (7 - j) = (p == .white)) (hp : ∀ x y, x < 128 → y < 80 → pixel img x y = p) :
    bufferBytes (packPixels img m) = fill b 1280 := by
  refine List.eq_replicate_iff.2 ⟨length_bufferBytes _, fun c hc => ?_⟩
  obtain ⟨i, -, rfl⟩ := List.mem_map.1 hc
  refine byte_eq_of_msbFirst fun j hj => ?_
  rw [getLsbD_packPixels img hm i hj, hb j hj, hp _ _ (by omega) (Nat.mod_lt _ (by decide))]

/-- Settles O24: both colours at once, but for the bits of 0xFF and 0x00. -/
theorem uniformImagesPackToUniformBuffers : Obligations.UniformImagesPackToUniformBuffers := fun _ _ hm =>
  ⟨bufferBytes_packPixels_uniform hm (by decide), bufferBytes_packPixels_uniform hm (by decide)⟩

/-- A bit of the packed buffer is clear exactly when the pixel at its scan position is BLACK. -/
theorem getLsbD_packPixels_eq_false (img : Image) {m : Memory} (hm : m.wf = true) (i : Fin Config.bufLen) {j : Nat}
    (hj : j < 8) :
    (memRead (packPixels img m) i).getLsbD (7 - j) = false ↔
      pixel img (127 - (8 * i.val + j) / 80) ((8 * i.val + j) % 80) = .black := by
  rw [getLsbD_packPixels img hm i hj]
  cases pixel img (127 - (8 * i.val + j) / 80) ((8 * i.val + j) % 80) <;> decide

/-- Settles O25: the closed form clears the bits whose scan position is a BLACK pixel's, and `(x, y)` has just one. -/
theorem singleBlackPixelClearsOneBit : Obligations.SingleBlackPixelClearsOneBit := by
  intro img m x y hm hx hy hblack i j hj
  have hi : i.val < 1280 := i.isLt
  rw [getLsbD_packPixels_eq_false img hm i hj, hblack _ _ (by omega) (Nat.mod_lt _ (by decide))]
  omega

end Sys2Proof.Machine
end

section
/-! PROOFS. The statements of 41_bus_primitives.md: what a write's answer decides, and the clock law. -/

namespace Sys2Proof.Machine

/-! ## What a write's answer decides (R123) -/

theorem spiSuccess_eq_true_iff {a : SpiAnswer} {n : Nat} : spiSuccess a n = true ↔ a = .all ∨ a = .count n := by
  cases a <;> simp [spiSuccess]

/-- A short count fails a write like an error, and so does a count above its length. -/
theorem spiSuccess_eq_false_iff {a : SpiAnswer} {n : Nat} :
    spiSuccess a n = false ↔ a = .err ∨ ∃ k, a = .count k ∧ k ≠ n := by
  cases a <;> simp [spiSuccess]

theorem nextSpi_queued {s : State} {a : SpiAnswer} {more : List SpiAnswer} (hq : s.platform.spi = a :: more) :
    nextSpi s = (a, { s with platform := { s.platform with spi := more } }) := by
  simp only [nextSpi, hq]

theorem spiWrite_refused {bytes : List Byte} {s : State} (h : spiSuccess (nextSpi s).1 bytes.length = false) :
    spiWrite bytes s = .fault (spiFail bytes (nextSpi s).2) := by
  simp [spiWrite, h]

/-- Settles O12: the queued answer decides the write, and a failed write has `spiFail_shape`. -/
theorem writeSucceedsOnlyOnFullCount : Obligations.WriteSucceedsOnlyOnFullCount := by
  intro bytes s a more hq
  refine ⟨fun ha => spiWrite_accepted hq (spiSuccess_eq_true_iff.2 ha), fun ha => ⟨?_, ?_⟩⟩
  · have hw := spiWrite_refused (bytes := bytes) (s := s)
    rw [nextSpi_queued hq] at hw
    exact hw (spiSuccess_eq_false_iff.2 ha)
  · obtain ⟨n, p, hn, hp, hs⟩ := spiFail_shape bytes { s with platform := { s.platform with spi := more } }
    exact ⟨n, p, hn, hs, hp⟩

/-! ## A command frame that fails (R126, R128) -/

/-- The answer a write takes does not depend on the pins. -/
theorem nextSpi_setPin_fst (p : OutPin) (l : Level) (s : State) : (nextSpi (setPin p l s)).1 = (nextSpi s).1 := by
  simp only [nextSpi, setPin_platform]
  split <;> rfl

/-- A command frame that fails leaves DC low, its event and the platform's own change; no data frame follows it. -/
theorem sendCmdData_refused {c : Byte} {s : State} (p : List Byte) (h : spiSuccess (nextSpi s).1 1 = false) :
    ∃ n pl, n ≤ 1 ∧ pl.spi = s.platform.spi.tail ∧ sendCmdData c p s = .fault
      { s with trace := s.trace ++ [.setPin .dc .low, .spiWrite [c] (.err n)],
               latches := { s.latches with dc := .low }, platform := pl } := by
  have hw : sendCmd c s = .fault (spiFail [c] (nextSpi (setPin .dc .low s)).2) :=
    spiWrite_refused (by rw [nextSpi_setPin_fst]; exact h)
  obtain ⟨q, hq, hnext⟩ := nextSpi_shape (setPin .dc .low s)
  obtain ⟨n, pl, hn, hpl, hfail⟩ := spiFail_shape [c] (nextSpi (setPin .dc .low s)).2
  refine ⟨n, pl, hn, by rw [hpl, hnext]; exact hq, ?_⟩
  rw [sendCmdData, hw, hfail, hnext]
  simp [PortResult.andThen, setPin, emit, Latches.set]

/-- Settles O13: the failed command frame is the command's whole trace, and its fault ends the running request. -/
theorem failedCommandFrameEndsRequest : Obligations.FailedCommandFrameEndsRequest := by
  intro i c p s pos henc hseq hans
  obtain ⟨n, pl, hn, hpl, hsend⟩ := sendCmdData_refused (c := c) p (spiSuccess_eq_false_iff.2 hans)
  refine ⟨n, pl, hn, hpl, ?_⟩
  rw [exec_of_encode henc, runBusCommand, hsend]
  simp [hseq, raiseError, endRequest, writeStatus, setFault]

/-! ## The clock law (R124, R125) -/

theorem clockFloor_le_readClock (s : State) : clockFloor s.platform ≤ (readClock s).1 :=
  Nat.le_add_right _ _

/-- Right after a clock read the least value the next one may have is the value just read. -/
theorem clockFloor_after_readClock (s : State) : clockFloor (readClock s).2.platform = (readClock s).1 := rfl

/-- Once the request has read a clock, sleeps raise the least value of the next read by their sum. -/
theorem clockFloor_after_sleeps {s : State} {t : Nat} (h : s.platform.lastNow = some t) (pauses : List Nat) :
    clockFloor (pauses.foldl (fun u ms => sleepFor ms u) s).platform = clockFloor s.platform + pauses.sum := by
  induction pauses generalizing s with
  | nil => rfl
  | cons ms pauses ih =>
    have hone : clockFloor (sleepFor ms s).platform = clockFloor s.platform + ms := by
      simp [clockFloor, h, Nat.add_assoc]
    rw [List.foldl_cons, ih (s := sleepFor ms s) h, hone, List.sum_cons, Nat.add_assoc]

/-- Settles O36: no read is below the floor, and the sleeps have raised the floor from the value read before them. -/
theorem clockAdvancesByTheSleeps : Obligations.ClockAdvancesByTheSleeps := by
  intro s pauses
  calc (readClock s).1 + pauses.sum
      = clockFloor (pauses.foldl (fun u ms => sleepFor ms u) (readClock s).2).platform := by
        rw [clockFloor_after_sleeps (t := (readClock s).1) rfl, clockFloor_after_readClock]
    _ ≤ _ := clockFloor_le_readClock _

end Sys2Proof.Machine
end

section
/-! PROOFS. The statements of 42_controller.md: what each guard refuses, and what the session's requests and the
refreshes come to when their writes are accepted, and whatever the platform answers. -/

namespace Sys2Proof.Machine

/-- Settles O9: a later step of a running request is lines or a bus command, and neither touches the host port. -/
theorem runningRequestTakesNoOther : Obligations.RunningRequestTakesNoOther :=
  fun _ _ hs h => (lineStep_step hs h).requests

/-! ## The guards (R140) -/

/-- The host request an instruction is, none for a bus command. -/
def requestKind : Instr → Option RequestKind
  | .new => some .new
  | .on => some .on
  | .display _ => some .display
  | .clear => some .clear
  | .release => some .release
  | .awaitBusy => some .awaitBusy
  | .awaitBusyT _ => some .awaitBusyT
  | .pack _ => some .pack
  | _ => none

/-- A host request that its prologue refuses writes STATUS alone. -/
theorem exec_refused {i : Instr} {k : RequestKind} {e : Status} {s : State} (hk : requestKind i = some k)
    (h : prologue k s = some e) : exec i s = .next (refusedWith e s) := by
  have hr : refusedWith e s = raiseError none e s := (raiseError_prologue h).symm
  rw [hr]
  cases i
  all_goals cases hk
  all_goals
    simp only [exec, execNew, execOn, execDisplay, execClear, execRelease, execAwaitBusy, execAwaitBusyT, execPack,
      runRequest, h]

theorem prologue_new_held {s : State} (h : s.panel ≠ .absent) : prologue .new s = some .invalidState := by
  simp [prologue, h]

/-- Every request that can wait for BUSY needs a session. -/
theorem prologue_absent {k : RequestKind} {s : State} (hk : waitingState k ≠ none) (h : s.panel = .absent) :
    prologue k s = some .invalidState := by
  cases k <;> simp_all [prologue, waitingState]

/-- After a fault such a request is refused, unless it is RELEASE. -/
theorem prologue_faulted {k : RequestKind} {s : State} (hk : waitingState k ≠ none) (hr : k ≠ .release)
    (h : s.panel ≠ .absent) (hf : s.fault.f = true) : prologue k s = some .faulted := by
  cases k <;> simp_all [prologue, waitingState]

theorem prologue_on_notOff {s : State} (h : s.panel ≠ .absent) (hf : s.fault.f = false) (ho : s.panel ≠ .off) :
    prologue .on s = some .invalidState := by
  simp [prologue, h, hf, ho]

theorem prologue_busy_notIdle {k : RequestKind} {s : State} (hk : waitingState k = some .busy)
    (h : s.panel ≠ .absent) (hf : s.fault.f = false) (hi : s.panel ≠ .idle) :
    prologue k s = some .invalidState := by
  cases k <;> simp_all [prologue, waitingState]

/-- Settles O10: each clause is a guard of the prologue, which `exec` runs before all else. -/
theorem guardsRefuseAndChangeOnlyStatus : Obligations.GuardsRefuseAndChangeOnlyStatus := by
  intro s img tmo
  have waits : ∀ i ∈ [Instr.on, .display img, .clear, .release, .awaitBusy, .awaitBusyT tmo],
      ∃ k, requestKind i = some k ∧ waitingState k ≠ none := by simp [requestKind, waitingState]
  have waitsSound : ∀ i ∈ [Instr.on, .display img, .clear, .awaitBusy, .awaitBusyT tmo],
      ∃ k, requestKind i = some k ∧ waitingState k ≠ none ∧ k ≠ .release := by simp [requestKind, waitingState]
  have busy : ∀ i ∈ [Instr.display img, .clear, .awaitBusy, .awaitBusyT tmo],
      ∃ k, requestKind i = some k ∧ waitingState k = some .busy := by simp [requestKind, waitingState]
  refine ⟨fun h => exec_refused rfl (prologue_new_held h), fun h i hi => ?_, fun h hf i hi => ?_,
    fun h hf ho => exec_refused rfl (prologue_on_notOff h hf ho), fun h hf hn i hi => ?_⟩
  · obtain ⟨k, hk, hw⟩ := waits i hi
    exact exec_refused hk (prologue_absent hw h)
  · obtain ⟨k, hk, hw, hr⟩ := waitsSound i hi
    exact exec_refused hk (prologue_faulted hw hr h hf)
  · obtain ⟨k, hk, hw⟩ := busy i hi
    exact exec_refused hk (prologue_busy_notIdle hw h hf hn)

/-! ## NEW (R141) -/

theorem exec_new_absent {s : State} (h : s.panel = .absent) : exec .new s = .next (openSession s) := by
  have hp : prologue .new s = none := by simp [prologue, h]
  simp only [exec, execNew, hp]

/-- Settles O16: refused by its guard, or past it the one acquisition answer decides. -/
theorem newOpensSession : Obligations.NewOpensSession := by
  refine fun s => ⟨fun h => exec_refused rfl (prologue_new_held h), fun h ha => ?_, fun levels h ha => ?_⟩
  · rw [exec_new_absent h, openSession, ha]; rfl
  · rw [exec_new_absent h, openSession, ha]
    simp [writeStatus, clearFault]

/-! ## Past the guard -/

/-- A request whose guard lets it runs its lines. -/
theorem RunsLines.exec {s s₀ : State} {i : Instr} {k : RequestKind} {lines : List SeqOp}
    (h : RunsLines s i k lines s₀) : exec i s = .next (runOps k lines s₀) := by
  cases h with
  | on off sound => simp [Machine.exec, execOn, runRequest, prologue, off, sound]
  | display img w h idle sound => exact exec_display_sized w h idle sound
  | clear idle sound => simp [Machine.exec, execClear, runRequest, prologue, idle, sound]
  | release held => simp [Machine.exec, execRelease, runRequest, prologue, held]
  | awaitBusy idle sound => simp [Machine.exec, execAwaitBusy, runRequest, prologue, idle, sound]
  | awaitBusyT tmo idle sound => simp [Machine.exec, execAwaitBusyT, prologue, idle, sound]

/-! ## Whatever the platform answers -/

/-- A request without a deadline ends in its own STATE, waits, or is ended by a fault. -/
theorem ComesTo.finishesWaitsOrFaults {k : RequestKind} {p : PanelState} {s t : State} (h : ComesTo k s t)
    (hk : k ≠ .awaitBusyT) (hp : faultState k = some p) :
    finishedIn (endState k) s t ∨ waitsIn k s t ∨ faultedIn p s t := by
  rcases h.ends with he | he | ⟨p', hp', he⟩ | ⟨ht, -⟩
  · exact .inl he
  · exact .inr (.inl he)
  · rw [hp] at hp'
    obtain rfl := Option.some.inj hp'
    exact .inr (.inr he)
  · exact absurd ht hk

/-- From `s` to `t` no buffer, no deadline and no latch but DC was written. -/
structure KeepsPower (s t : State) : Prop where
  buffers  : keepsBuffers s t
  deadline : t.deadline = s.deadline
  reset    : t.latches.reset = s.latches.reset
  power    : t.latches.power = s.latches.power

theorem PortStep.keepsPower {s t : State} (h : PortStep s t) : KeepsPower s t :=
  ⟨⟨h.devbuf, h.requests, h.params⟩, h.deadline, h.reset, h.power⟩

/-- The wait for Idle, its end and its fault write STATE, STATUS, FAULT and the sequencer alone. -/
theorem KeepsPower.comesToIdle {k : RequestKind} {s u r : State} (h : KeepsPower s u)
    (hr : r = runOps k [.finish .idle] u ∨
      r = { u with seq := some { request := k, rest := .sleep tPoll :: .awaitBusy :: [.finish .idle] } } ∨
      r = raiseError (some k) .transportFault u) : KeepsPower s r := by
  obtain ⟨hb, hd, hre, hpo⟩ := h
  rcases hr with rfl | rfl | rfl <;> exact ⟨hb, hd, hre, hpo⟩

theorem keepsPower_onLines (p : Params) (s : State) :
    KeepsPower (afterResetPulse s) (runOps .on (onLines p) s) := by
  obtain ⟨u, hu, h⟩ := runOps_script_await .on (initFrameScript p) [.finish .idle] (afterResetPulse s)
  rw [runOps_onLines]
  exact hu.keepsPower.comesToIdle h

/-- Settles O19: the reset pulse leaves both pins High, and nothing after it drives them. -/
theorem onFinishesWaitsOrFaults : Obligations.OnFinishesWaitsOrFaults := by
  intro s off sound
  obtain ⟨hb, hd, hre, hpo⟩ := keepsPower_onLines s.params s
  exact ⟨_, (RunsLines.on off sound).exec, hb, hd, hre, hpo,
    (comesTo_onLines s.params s).finishesWaitsOrFaults (by decide) rfl⟩

theorem keepsPower_refresh (k : RequestKind) (a b : List Byte) (s : State) :
    KeepsPower s (runOps k ([.enter .busy, .send 0x10 a, .send 0x13 b] ++ turnOnDisplay ++ [.finish .idle]) s) := by
  obtain ⟨u, hu, h⟩ := runOps_refresh k a b s
  obtain ⟨hb, hd, hre, hpo⟩ := hu.keepsPower
  exact KeepsPower.comesToIdle ⟨hb, hd, hre, hpo⟩ h

/-- Settles O29: DISPLAY and CLEAR run the same lines over other buffers. -/
theorem refreshFinishesWaitsOrFaults : Obligations.RefreshFinishesWaitsOrFaults := by
  refine fun s idle sound => ⟨fun img w h => ?_, ?_⟩
  · have hl := RunsLines.display (s := s) img w h idle sound
    obtain ⟨⟨hm, hq, hpa⟩, hd, hre, hpo⟩ := keepsPower_refresh .display _ _ _
    exact ⟨_, hl.exec, hm, hq, hpa, hd, hre, hpo, hl.comesTo.finishesWaitsOrFaults (by decide) rfl⟩
  · have hl := RunsLines.clear (s := s) idle sound
    obtain ⟨hb, hd, hre, hpo⟩ := keepsPower_refresh .clear _ _ s
    exact ⟨_, hl.exec, hb, hd, hre, hpo, hl.comesTo.finishesWaitsOrFaults (by decide) rfl⟩

/-- What is left of request `k` once its busy wait is over. -/
def endLines : RequestKind → List SeqOp
  | .release => [.sleep tOff, .setPin .power .low, .enter .off, .finish .absent]
  | k => [.finish (endState k)]

theorem runOps_releaseLines (p : Params) (s : State) :
    runOps .release (releaseLines p) s =
      runOps .release (sendScript p.shutdownSequence ++ .awaitBusy :: endLines .release)
        { s with panel := .shuttingDown } := by
  simp [releaseLines, offSequence, endLines]

/-- Settles O20: the frames and the wait leave POWER_L alone, and only the lines after the wait drive it. -/
theorem releaseFinishesWaitsOrFaults : Obligations.ReleaseFinishesWaitsOrFaults := by
  intro s held
  obtain ⟨u, hu, h⟩ :=
    runOps_script_await .release s.params.shutdownSequence (endLines .release) { s with panel := .shuttingDown }
  have hb : keepsBuffers s u := hu.keepsPower.buffers
  have hrs : u.responses = s.responses := hu.responses
  refine ⟨_, (RunsLines.release held).exec, ?_⟩
  rw [runOps_releaseLines]
  rcases h with h | h | h <;> rw [h] <;> refine ⟨hb, hu.deadline, hu.reset, ?_⟩
  · exact .inl ⟨⟨rfl, rfl, hu.fault, rfl, congrArg (· ++ [Status.ok]) hrs⟩, rfl⟩
  · exact .inr (.inl ⟨⟨rfl, congrArg some hu.panel, hu.fault, hu.status, hrs⟩, hu.power⟩)
  · exact .inr (.inr ⟨⟨rfl, rfl, rfl, rfl, congrArg (· ++ [Status.transportFault]) hrs⟩, hu.power⟩)

/-! ## When the writes are accepted: up to the first busy read -/

/-- `s` in STATE `p` with the latches `la`, the events `evs` added and the platform at `pl`. -/
def reached (s : State) (p : PanelState) (la : Latches) (evs : List PortEvent) (pl : Platform) : State :=
  { s with panel := p, latches := la, trace := s.trace ++ evs, platform := pl }

theorem reached_reached (s : State) (p p' : PanelState) (la la' : Latches) (xs ys : List PortEvent)
    (pl pl' : Platform) : reached (reached s p la xs pl) p' la' ys pl' = reached s p' la' (xs ++ ys) pl' := by
  simp [reached]

/-- Request `k` after a poll of its wait that read `l`: it goes on to its end, or waits. -/
def afterRead (k : RequestKind) (l : Level) (u : State) : State :=
  match l with
  | .high => runOps k (endLines k) u
  | .low => { u with seq := some { request := k, rest := waitingLines k } }

/-- A Low read writes nothing but the sequencer. -/
theorem waitsIn_afterRead {k : RequestKind} {s : State} {p : PanelState} {la : Latches} {evs : List PortEvent}
    {pl : Platform} (hp : waitingState k = some p) : waitsIn k s (afterRead k .low (reached s p la evs pl)) :=
  ⟨rfl, hp.symm, rfl, rfl, rfl⟩

/-- The requests whose wait has no deadline. -/
def WaitsUnbounded (k : RequestKind) : Prop := waitingLines k = .sleep tPoll :: .awaitBusy :: endLines k

/-- Frames and the unbounded wait after them, the writes accepted and the first BUSY read `l`. -/
theorem runOps_frames_await {k : RequestKind} {l : Level} {evs : List PortEvent} {s : State}
    {more : List SpiAnswer} {levels : List Level} (hk : WaitsUnbounded k) (sc : Script)
    (h : writesAccepted (scriptEvents sc ++ (pollEvents l ++ evs)) s.platform.spi = some more)
    (hb : s.platform.busy = l :: levels) :
    ∃ pl, runOps k (sendScript sc ++ .awaitBusy :: endLines k) s =
      afterRead k l (reached s s.panel { s.latches with dc := .low } (scriptEvents sc ++ pollEvents l) pl) := by
  obtain ⟨q, dc, h1, hq⟩ := runOps_script_accepted (k := k) (rest := .awaitBusy :: endLines k) sc h
  have hr (q' : List SpiAnswer) : afterPoll (afterWrites s (scriptEvents sc) dc q) l q' levels =
      reached s s.panel { s.latches with dc := .low } (scriptEvents sc ++ pollEvents l)
        { s.platform with spi := q', busy := levels } :=
    reached_reached s _ _ _ _ _ _ { s.platform with spi := q } _
  rw [h1]
  cases l with
  | high =>
    obtain ⟨q', h2, -⟩ := runOps_awaitBusy_high (k := k) (rest := endLines k)
      (s := afterWrites s (scriptEvents sc) dc q) hq hb
    exact ⟨_, by rw [h2, hr]; rfl⟩
  | low =>
    obtain ⟨q', h2, -⟩ := runOps_awaitBusy_low (k := k) (rest := endLines k)
      (s := afterWrites s (scriptEvents sc) dc q) hq hb
    exact ⟨_, by rw [h2, hr, ← hk]; rfl⟩

theorem reached_afterResetPulse (s : State) (p : PanelState) (la : Latches) (evs : List PortEvent) (pl : Platform) :
    reached (afterResetPulse s) p la evs pl =
      reached s p la (.setPin .power .high :: resetPulseEvents ++ evs) pl := by
  simp [reached, afterResetPulse, resetPulseEvents, tRstH1, tRstL, tRstH2]

theorem exec_on_accepted {l : Level} {s : State} {more : List SpiAnswer} {levels : List Level} (off : s.panel = .off)
    (sound : s.fault.f = false) (hb : s.platform.busy = l :: levels)
    (h : writesAccepted (onEvents s.params l) s.platform.spi = some more) :
    ∃ pl, exec .on s = .next (afterRead .on l (reached s .initializing
      { reset := .high, dc := .low, power := .high } (onEvents s.params l) pl)) := by
  have hw : writesAccepted (scriptEvents (initFrameScript s.params) ++ (pollEvents l ++ [])) s.platform.spi =
      some more := by
    simpa [scriptEvents_init, onEvents, resetPulseEvents, writesAccepted] using h
  have hl : runOps .on (onLines s.params) s =
      runOps .on (sendScript (initFrameScript s.params) ++ .awaitBusy :: endLines .on) (afterResetPulse s) :=
    runOps_onLines s.params s
  obtain ⟨pl, hr⟩ :=
    runOps_frames_await (k := .on) (s := afterResetPulse s) rfl (initFrameScript s.params) hw hb
  refine ⟨pl, ?_⟩
  rw [(RunsLines.on off sound).exec, hl, hr, reached_afterResetPulse, scriptEvents_init, ← List.append_assoc]
  rfl

theorem exec_release_accepted {l : Level} {evs : List PortEvent} {s : State} {more : List SpiAnswer}
    {levels : List Level} (held : s.panel ≠ .absent) (hb : s.platform.busy = l :: levels)
    (h : writesAccepted (scriptEvents s.params.shutdownSequence ++ (pollEvents l ++ evs)) s.platform.spi =
      some more) :
    ∃ pl, exec .release s = .next (afterRead .release l (reached s .shuttingDown { s.latches with dc := .low }
      (scriptEvents s.params.shutdownSequence ++ pollEvents l) pl)) := by
  rw [(RunsLines.release held).exec, runOps_releaseLines]
  obtain ⟨pl, hr⟩ := runOps_frames_await (k := .release) (s := { s with panel := .shuttingDown }) rfl _ h hb
  exact ⟨pl, congrArg _ hr⟩

theorem exec_awaitBusy_accepted {l : Level} {s : State} {more : List SpiAnswer} {levels : List Level}
    (idle : s.panel = .idle) (sound : s.fault.f = false) (hb : s.platform.busy = l :: levels)
    (h : writesAccepted (pollEvents l) s.platform.spi = some more) :
    ∃ pl, exec .awaitBusy s = .next (afterRead .awaitBusy l (reached s .busy { s.latches with dc := .low }
      (pollEvents l) pl)) := by
  rw [(RunsLines.awaitBusy idle sound).exec]
  obtain ⟨pl, hr⟩ := runOps_frames_await (k := .awaitBusy) (s := { s with panel := .busy }) (evs := []) rfl []
    (by simpa [scriptEvents] using h) hb
  exact ⟨pl, congrArg _ hr⟩

/-- The frames of DISPLAY and CLEAR as a script, then the pause and the poll. -/
theorem refreshEvents_eq (a b : List Byte) (l : Level) :
    refreshEvents a b l = scriptEvents [(0x10, a), (0x13, b), (0x12, [])] ++ (.sleep 10 :: pollEvents l) := by
  simp [refreshEvents, scriptEvents, frameEvents, dataEvents]

theorem runOps_refresh_accepted {k : RequestKind} {l : Level} {a b : List Byte} {s : State} {more : List SpiAnswer}
    {levels : List Level} (hk : WaitsUnbounded k) (he : endLines k = [.finish .idle])
    (h : writesAccepted (refreshEvents a b l) s.platform.spi = some more) (hb : s.platform.busy = l :: levels) :
    ∃ pl, runOps k ([.enter .busy, .send 0x10 a, .send 0x13 b] ++ turnOnDisplay ++ [.finish .idle]) s =
      afterRead k l (reached s .busy { s.latches with dc := .low } (refreshEvents a b l) pl) := by
  rw [refreshEvents_eq] at h ⊢
  obtain ⟨q, dc, h1, hq⟩ := runOps_script_accepted (k := k) (s := { s with panel := .busy })
    (rest := .sleep tRefresh :: .awaitBusy :: endLines k) _ h
  obtain ⟨pl, h2⟩ := runOps_frames_await (k := k) (l := l) (evs := []) (s := sleepFor tRefresh (afterWrites
    { s with panel := .busy } (scriptEvents [(0x10, a), (0x13, b), (0x12, [])]) dc q)) hk []
    (by simpa [scriptEvents, writesAccepted] using hq) hb
  refine ⟨pl, ?_⟩
  rw [he] at h1 h2
  refine h1.trans (h2.trans ?_)
  simp [reached, tRefresh, scriptEvents]

theorem exec_display_accepted {l : Level} {img : Image} {s : State} {more : List SpiAnswer} {levels : List Level}
    (hw : img.w = 128) (hh : img.h = 80) (idle : s.panel = .idle) (sound : s.fault.f = false)
    (hb : s.platform.busy = l :: levels)
    (h : writesAccepted (refreshEvents (referenceBytes s.params.refMode (packPixels img s.devbuf))
      (bufferBytes (packPixels img s.devbuf)) l) s.platform.spi = some more) :
    ∃ pl, exec (.display img) s = .next (afterRead .display l
      (reached { s with devbuf := packPixels img s.devbuf } .busy { s.latches with dc := .low }
        (refreshEvents (referenceBytes s.params.refMode (packPixels img s.devbuf))
          (bufferBytes (packPixels img s.devbuf)) l) pl)) := by
  rw [(RunsLines.display img hw hh idle sound).exec, displayLines, refBuffer_bufferBytes]
  obtain ⟨pl, hr⟩ := runOps_refresh_accepted (k := .display) (s := { s with devbuf := packPixels img s.devbuf })
    rfl rfl h hb
  exact ⟨pl, congrArg _ hr⟩

theorem exec_clear_accepted {l : Level} {s : State} {more : List SpiAnswer} {levels : List Level}
    (idle : s.panel = .idle) (sound : s.fault.f = false) (hb : s.platform.busy = l :: levels)
    (h : writesAccepted (refreshEvents (fill s.params.clearFill1 1280) (fill s.params.clearFill2 1280) l)
      s.platform.spi = some more) :
    ∃ pl, exec .clear s = .next (afterRead .clear l (reached s .busy { s.latches with dc := .low }
      (refreshEvents (fill s.params.clearFill1 1280) (fill s.params.clearFill2 1280) l) pl)) := by
  rw [(RunsLines.clear idle sound).exec]
  obtain ⟨pl, hr⟩ := runOps_refresh_accepted (k := .clear) rfl rfl h hb
  exact ⟨pl, congrArg _ hr⟩

/-- Settles O52, request by request: the poll that read Low is the last event, and STATE is the request's own. -/
theorem lowFirstReadWaitsWithFramesSent : Obligations.LowFirstReadWaitsWithFramesSent := by
  refine fun s more levels hb => ⟨fun off sound h => ?_, fun img idle sound hw hh h => ?_, fun idle sound h => ?_,
    fun held h => ?_, fun idle sound h => ?_⟩
  · obtain ⟨pl, hr⟩ := exec_on_accepted off sound hb h
    exact ⟨_, hr, waitsIn_afterRead rfl, rfl⟩
  · obtain ⟨pl, hr⟩ := exec_display_accepted hw hh idle sound hb h
    exact ⟨_, hr, waitsIn_afterRead rfl, rfl, rfl⟩
  · obtain ⟨pl, hr⟩ := exec_clear_accepted idle sound hb h
    exact ⟨_, hr, waitsIn_afterRead rfl, rfl⟩
  · obtain ⟨pl, hr⟩ := exec_release_accepted (evs := []) held hb (by simpa [offWaitEvents] using h)
    exact ⟨_, hr, waitsIn_afterRead rfl, rfl⟩
  · obtain ⟨pl, hr⟩ := exec_awaitBusy_accepted idle sound hb h
    exact ⟨_, hr, waitsIn_afterRead rfl, rfl⟩

/-! ## When the writes are accepted and a BUSY read is High: to the end -/

/-- From `s` to `t` request `k` ended with OK: the events `evs` and those after its wait were added, and the latches,
`la` at the end of the wait, are changed by RELEASE alone. -/
structure EndsAfter (k : RequestKind) (s t : State) (la : Latches) (evs : List PortEvent) : Prop where
  finished : finishedIn (endState k) s t
  trace    : t.trace = s.trace ++ (evs ++ afterWaitEvents k)
  latches  : t.latches = { la with power := if k = .release then .low else la.power }
  deadline : t.deadline = s.deadline
  buffers  : keepsBuffers s t

theorem endsAfter_afterRead (k : RequestKind) (s : State) (p : PanelState) (la : Latches) (evs : List PortEvent)
    (pl : Platform) : EndsAfter k s (afterRead k .high (reached s p la evs pl)) la evs := by
  have hb : keepsBuffers s (afterRead k .high (reached s p la evs pl)) := by cases k <;> exact ⟨rfl, rfl, rfl⟩
  cases k with
  | release =>
    exact ⟨⟨rfl, rfl, rfl, rfl, rfl⟩, by simp [afterRead, endLines, reached, afterWaitEvents, tOff], rfl, rfl, hb⟩
  | _ =>
    exact ⟨⟨rfl, rfl, rfl, rfl, rfl⟩, by simp [afterRead, endLines, reached, afterWaitEvents], rfl, rfl, hb⟩

/-- A request with nothing to do after its wait adds no more events. -/
theorem EndsAfter.trace_eq {k : RequestKind} {s t : State} {la : Latches} {evs : List PortEvent}
    (h : EndsAfter k s t la evs) (hk : afterWaitEvents k = []) : t.trace = s.trace ++ evs := by
  rw [h.trace, hk, List.append_nil]

/-- Settles O17: past its guard ON comes to the read in Initializing with both pins High, and a High read ends it. -/
theorem onPowersUpAndInitialises : Obligations.OnPowersUpAndInitialises := by
  intro s more levels off sound hb h
  obtain ⟨pl, hr⟩ := exec_on_accepted off sound hb h
  have he := endsAfter_afterRead .on s .initializing { reset := .high, dc := .low, power := .high }
    (onEvents s.params .high) pl
  exact ⟨_, hr, he.finished, he.trace_eq rfl, he.latches, he.deadline, he.buffers⟩

/-- Settles O18: the one request with events after its wait. -/
theorem releasePowersDown : Obligations.ReleasePowersDown := by
  intro s more levels held hb h
  obtain ⟨pl, hr⟩ := exec_release_accepted (evs := [.sleep 2000, .setPin .power .low]) held hb
    (by simpa [offEvents] using h)
  have he := endsAfter_afterRead .release s .shuttingDown { s.latches with dc := .low }
    (scriptEvents s.params.shutdownSequence ++ pollEvents .high) pl
  exact ⟨_, hr, he.finished, he.trace, he.latches, he.deadline, he.buffers⟩

/-- Settles O27: DISPLAY's lines start from the packed image, which nothing after writes. -/
theorem displaySendsPackedImage : Obligations.DisplaySendsPackedImage := by
  intro s img more levels idle sound hw hh hb h
  obtain ⟨pl, hr⟩ := exec_display_accepted hw hh idle sound hb h
  have he := endsAfter_afterRead .display { s with devbuf := packPixels img s.devbuf } .busy
    { s.latches with dc := .low } (refreshEvents (referenceBytes s.params.refMode (packPixels img s.devbuf))
      (bufferBytes (packPixels img s.devbuf)) .high) pl
  obtain ⟨hd, hq, hp⟩ := he.buffers
  exact ⟨_, hr, he.finished, he.trace_eq rfl, referenceBytes_length _ _, bufferBytes_length _, hd, he.latches,
    he.deadline, hq, hp⟩

/-- Settles O28: CLEAR comes to the read in Busy with DEVBUF as it was, and a High read ends it. -/
theorem clearSendsBothFills : Obligations.ClearSendsBothFills := by
  intro s more levels idle sound hb h
  obtain ⟨pl, hr⟩ := exec_clear_accepted idle sound hb h
  have he := endsAfter_afterRead .clear s .busy { s.latches with dc := .low }
    (refreshEvents (fill s.params.clearFill1 1280) (fill s.params.clearFill2 1280) .high) pl
  exact ⟨_, hr, he.finished, he.trace_eq rfl, he.latches, he.deadline, he.buffers⟩

/-! ## A waiting request whose next read is High -/

/-- A waiting request has no bus command at its head, so a step resumes it at its wait. -/
theorem step_waiting {k : RequestKind} {s : State} (h : s.seq = some { request := k, rest := waitingLines k }) :
    step s = .next (runOps k (waitingLines k) s) := by
  rcases fetch_running h with ⟨c, p, rest, i, hsend, -⟩ | hf
  · exact absurd hsend (waitingLines_ne_send k c p rest)
  · simp only [step, hf]

/-- Every wait, timed or not, is over at a High read. -/
theorem runOps_waitingLines_high {k : RequestKind} {s : State} {more : List SpiAnswer} {levels : List Level}
    (hk : waitingState k ≠ none) (hb : s.platform.busy = .high :: levels)
    (h : writesAccepted (pollEvents .high) s.platform.spi = some more) :
    ∃ pl, runOps k (waitingLines k) s = afterRead k .high
      (reached s s.panel { s.latches with dc := .low } ([.sleep 50] ++ pollEvents .high) pl) := by
  have hw : writesAccepted (pollEvents .high ++ []) (sleepFor 50 s).platform.spi = some more := by simpa using h
  have paused (pl : Platform) : reached (sleepFor 50 s) s.panel { s.latches with dc := .low } (pollEvents .high) pl =
      reached s s.panel { s.latches with dc := .low } ([.sleep 50] ++ pollEvents .high) pl :=
    reached_reached s _ _ _ _ [.sleep 50] _ (sleepFor 50 s).platform pl
  have unbounded (hu : WaitsUnbounded k) : ∃ pl, runOps k (waitingLines k) s = afterRead k .high
      (reached s s.panel { s.latches with dc := .low } ([.sleep 50] ++ pollEvents .high) pl) := by
    obtain ⟨pl, hr⟩ := runOps_frames_await (s := sleepFor 50 s) hu [] hw hb
    refine ⟨pl, ?_⟩
    rw [← paused, hu]
    exact hr
  cases k with
  | new => exact absurd rfl hk
  | pack => exact absurd rfl hk
  | awaitBusyT =>
    obtain ⟨q, hp, -⟩ := poll_accepted (s := sleepFor 50 s) hw hb
    refine ⟨{ (sleepFor 50 s).platform with spi := q, busy := levels }, ?_⟩
    rw [← paused, waitingLines, runOps_sleep, runOps, runOp, runPollTimed, hp]
    rfl
  | _ => exact unbounded rfl

/-- Settles O51: the wait is over at the read, and the lines after it end the request. -/
theorem waitingRequestEndsAtHighRead : Obligations.WaitingRequestEndsAtHighRead := by
  intro k s more levels hk hs hb h
  have hw : waitingState k ≠ none := (by decide : ∀ k ∈ [RequestKind.on, .display, .clear, .release, .awaitBusy,
    .awaitBusyT], waitingState k ≠ none) k hk
  obtain ⟨pl, hr⟩ := runOps_waitingLines_high hw hb h
  have he := endsAfter_afterRead k s s.panel { s.latches with dc := .low } ([.sleep 50] ++ pollEvents .high) pl
  refine ⟨_, (step_waiting hs).trans (congrArg _ hr), he.finished, ?_, he.latches, he.deadline, he.buffers⟩
  rw [he.trace]
  simp only [List.append_assoc]

/-! ## Sleep totals (R143, R149) -/

theorem sleepTotal_append (xs ys : List PortEvent) : sleepTotal (xs ++ ys) = sleepTotal xs + sleepTotal ys := by
  induction xs with
  | nil => simp [sleepTotal]
  | cons e xs ih => cases e <;> simp [sleepTotal, ih, Nat.add_assoc]

theorem sleepTotal_frameEvents (c : Byte) (p : List Byte) : sleepTotal (frameEvents c p) = 0 := by
  cases p <;> rfl

/-- A script sends frames alone. -/
theorem sleepTotal_scriptEvents (sc : Script) : sleepTotal (scriptEvents sc) = 0 := by
  induction sc with
  | nil => rfl
  | cons e sc ih => rw [scriptEvents_cons, sleepTotal_append, sleepTotal_frameEvents, ih]

theorem sleepTotal_onEvents (p : Params) : sleepTotal (onEvents p .high) = 402 := by
  simp only [onEvents, ← scriptEvents_init, sleepTotal_append, sleepTotal_scriptEvents]
  rfl

theorem sleepTotal_offEvents (p : Params) : sleepTotal (offEvents p) = 2000 := by
  simp only [offEvents, sleepTotal_append, sleepTotal_scriptEvents]
  rfl

/-- Settles O47: the sleeps of O17's and O18's traces. -/
theorem sleepTotalsOfOnAndRelease : Obligations.SleepTotalsOfOnAndRelease := by
  refine ⟨fun s more levels off sound hb h => ?_, fun s more levels held hb h => ?_⟩
  · obtain ⟨t, ht, -, htr, -⟩ := onPowersUpAndInitialises s more levels off sound hb h
    exact ⟨t, _, ht, htr, sleepTotal_onEvents s.params⟩
  · obtain ⟨t, ht, -, htr, -⟩ := releasePowersDown s more levels held hb h
    exact ⟨t, _, ht, htr, sleepTotal_offEvents s.params⟩

end Sys2Proof.Machine
end

section
/-! PROOFS. The statements of 43_busy_poller.md: the two waits begun with BUSY High, whatever the platform answers, the
unbounded wait poll by poll, and the timed wait against its deadline. -/

namespace Sys2Proof.Machine

/-! ## The polls of a timed wait (R173) -/

theorem poll_accepted_afterPoll {l : Level} {s : State} {more : List SpiAnswer} {levels : List Level}
    (h : writesAccepted (pollEvents l) s.platform.spi = some more) (hb : s.platform.busy = l :: levels) :
    ∃ q, poll s = .answered l (afterPoll s l q levels) := by
  obtain ⟨q, hp, -⟩ := poll_accepted (evs := []) (by simpa using h) hb
  exact ⟨q, hp⟩

/-- The first poll of a timed wait, read High: the wait is over and no clock is read. -/
theorem runOps_awaitTimed_of_high {s u : State} (h : poll s = .answered .high u) (k : RequestKind) (d : Nat)
    (rest : List SeqOp) : runOps k (.awaitTimed d :: rest) s = runOps k rest u := by
  simp only [runOps, runOp, runAwaitTimed, h]

/-- The first poll of a timed wait, read Low: the clock read after it sets the deadline. -/
theorem runOps_awaitTimed_of_low {s u : State} (h : poll s = .answered .low u) (k : RequestKind) (d : Nat)
    (rest : List SeqOp) : runOps k (.awaitTimed d :: rest) s =
      { (readClock u).2 with
        deadline := (readClock u).1 + d
        seq := some { request := k, rest := .sleep tPoll :: .pollTimed :: rest } } := by
  simp only [runOps, runOp, runAwaitTimed, h]
  rfl

/-- A later poll of a timed wait, read Low: past the deadline it times out, else it waits on. -/
theorem runOps_pollTimed_of_low {s u : State} (h : poll s = .answered .low u) (k : RequestKind)
    (rest : List SeqOp) : runOps k (.pollTimed :: rest) s =
      if u.deadline < (readClock u).1 then raiseError (some k) .busyTimeout (readClock u).2
      else { (readClock u).2 with seq := some { request := k, rest := .sleep tPoll :: .pollTimed :: rest } } := by
  simp only [runOps, runOp, runPollTimed, h]
  by_cases hlt : u.deadline < (readClock u).1
  · simp only [hlt, if_true]
  · simp only [hlt, if_false]; rfl

/-- A query that is accepted and read Low, and the clock read after it, when its draw is queued. -/
theorem poll_low_readClock {s : State} {more : List SpiAnswer} {levels : List Level} {x : Nat} {draws : List Nat}
    (h : writesAccepted (pollEvents .low) s.platform.spi = some more) (hb : s.platform.busy = .low :: levels)
    (hc : s.platform.clock = x :: draws) :
    ∃ u pl, poll s = .answered .low u ∧ u.deadline = s.deadline ∧
      readClock u = (clockFloor s.platform + x, reached s s.panel { s.latches with dc := .low }
        (pollEvents .low ++ [.now (clockFloor s.platform + x)]) pl) := by
  obtain ⟨q, hp⟩ := poll_accepted_afterPoll h hb
  refine ⟨_, (readClock (afterPoll s .low q levels)).2.platform, hp, rfl, ?_⟩
  simp only [readClock, nextClock, afterPoll_platform, hc, emit, afterPoll_trace, List.append_assoc]
  rfl

/-! ## BUSY High at once (R174, R175) -/

theorem exec_awaitBusyT_high {s : State} (tmo : BitVec 32) {more : List SpiAnswer} {levels : List Level}
    (idle : s.panel = .idle) (sound : s.fault.f = false) (hb : s.platform.busy = .high :: levels)
    (h : writesAccepted (pollEvents .high) s.platform.spi = some more) :
    ∃ pl, exec (.awaitBusyT tmo) s = .next (afterRead .awaitBusyT .high (reached s .busy
      { s.latches with dc := .low } (pollEvents .high) pl)) := by
  obtain ⟨q, hp⟩ := poll_accepted_afterPoll (s := { startClock s with panel := .busy }) h hb
  rw [(RunsLines.awaitBusyT tmo idle sound).exec, awaitBusyTLines, runOps_enter, runOps_awaitTimed_of_high hp]
  exact ⟨_, rfl⟩

/-- Settles O30: both waits come to the same read in Busy, and a High read ends them. -/
theorem awaitReturnsAtOnceWhenNotBusy : Obligations.AwaitReturnsAtOnceWhenNotBusy := by
  intro s tmo more levels idle sound hb h i hi
  have hx : ∃ k pl, (k = .awaitBusy ∨ k = .awaitBusyT) ∧ exec i s = .next (afterRead k .high
      (reached s .busy { s.latches with dc := .low } (pollEvents .high) pl)) := by
    simp only [List.mem_cons, List.not_mem_nil, or_false] at hi
    rcases hi with rfl | rfl
    · obtain ⟨pl, hx⟩ := exec_awaitBusy_accepted idle sound hb h
      exact ⟨.awaitBusy, pl, .inl rfl, hx⟩
    · obtain ⟨pl, hx⟩ := exec_awaitBusyT_high tmo idle sound hb h
      exact ⟨.awaitBusyT, pl, .inr rfl, hx⟩
  obtain ⟨k, pl, hk, hx⟩ := hx
  have he := endsAfter_afterRead k s .busy { s.latches with dc := .low } (pollEvents .high) pl
  rcases hk with rfl | rfl <;>
    exact ⟨_, hx, he.finished, he.trace_eq rfl, he.latches, he.deadline, he.buffers⟩

/-! ## Whatever the platform answers -/

theorem keepsPower_awaitBusyLines (s : State) : KeepsPower s (runOps .awaitBusy awaitBusyLines s) := by
  obtain ⟨u, hu, h⟩ := runOps_awaitBusy .awaitBusy [.finish .idle] { s with panel := .busy }
  obtain ⟨hb, hd, hre, hpo⟩ := hu.keepsPower
  exact KeepsPower.comesToIdle ⟨hb, hd, hre, hpo⟩ h

/-- Settles O31: the first poll is the only one a request's own step makes, so the timed wait cannot run out in it. -/
theorem awaitFinishesWaitsOrFaults : Obligations.AwaitFinishesWaitsOrFaults := by
  refine fun s idle sound => ⟨?_, fun tmo => ?_⟩
  · have hl := RunsLines.awaitBusy (s := s) idle sound
    obtain ⟨hb, hd, hre, hpo⟩ := keepsPower_awaitBusyLines s
    exact ⟨_, hl.exec, hb, hd, hre, hpo, hl.comesTo.finishesWaitsOrFaults (by decide) rfl⟩
  · obtain ⟨u, hu, h⟩ :=
      runOps_awaitTimed .awaitBusyT (timeoutMs tmo) [.finish .idle] { startClock s with panel := .busy }
    have hb : keepsBuffers s u := hu.keepsPower.buffers
    have hrs : u.responses = s.responses := hu.responses
    refine ⟨_, (RunsLines.awaitBusyT tmo idle sound).exec, ?_⟩
    rw [awaitBusyTLines, runOps_enter]
    rcases h with h | ⟨dl, h⟩ | h <;> rw [h] <;> refine ⟨hb, hu.reset, hu.power, ?_⟩
    · exact .inl ⟨rfl, rfl, hu.fault, rfl, congrArg (· ++ [Status.ok]) hrs⟩
    · exact .inr (.inl ⟨rfl, congrArg some hu.panel, hu.fault, hu.status, hrs⟩)
    · exact .inr (.inr ⟨rfl, hu.panel, rfl, rfl, congrArg (· ++ [Status.transportFault]) hrs⟩)

/-! ## The unbounded wait, poll by poll (R172) -/

theorem run_succ {s u : State} (h : step s = .next u) (n : Nat) :
    Sys2Proof.core.run (n + 1) s = Sys2Proof.core.run n u := by
  have hs : Sys2Proof.core.step s = .next u := h
  simp only [Host.Core.run, hs]

/-- `k` Low reads and a High one, from a step that makes the first poll of AWAIT_BUSY from `u`. -/
theorem run_awaitBusy_polls (k : Nat) {s u : State} {more : List SpiAnswer} {levels : List Level}
    (hstep : step s = .next (runOps .awaitBusy [.awaitBusy, .finish .idle] u))
    (hb : u.platform.busy = List.replicate k .low ++ .high :: levels)
    (h : writesAccepted (awaitBusyEvents k) u.platform.spi = some more) :
    ∃ t, Sys2Proof.core.run (k + 1) s = .next t ∧ finishedIn .idle u t ∧
      t.trace = u.trace ++ awaitBusyEvents k ∧ keepsBuffers u t := by
  induction k generalizing s u with
  | zero =>
    obtain ⟨q, hq, -⟩ := runOps_awaitBusy_high (k := .awaitBusy) (rest := [.finish .idle]) (evs := []) (s := u)
      (by simpa [awaitBusyEvents] using h) hb
    exact ⟨_, (run_succ hstep 0).trans (congrArg _ hq), ⟨rfl, rfl, rfl, rfl, rfl⟩, rfl, rfl, rfl, rfl⟩
  | succ k ih =>
    have hw : writesAccepted (pollEvents .low ++ (.sleep 50 :: awaitBusyEvents k)) u.platform.spi = some more := by
      simpa [awaitBusyEvents] using h
    obtain ⟨q, hq, hmore⟩ := runOps_awaitBusy_low (k := .awaitBusy) (rest := [.finish .idle]) hw hb
    rw [hq] at hstep
    obtain ⟨t, hrun, hfin, htr, hkeep⟩ := ih (u := sleepFor 50 { afterPoll u .low q _ with seq := _ })
      (step_waiting (k := .awaitBusy) rfl) rfl hmore
    refine ⟨t, (run_succ hstep _).trans hrun, hfin, ?_, hkeep⟩
    rw [htr]
    simp [awaitBusyEvents]

/-- Settles O32: the request's own step makes the first poll. -/
theorem awaitBusyReturnsAfterAnyNumberOfPolls : Obligations.AwaitBusyReturnsAfterAnyNumberOfPolls := by
  intro k s r rest more levels idle sound hs hr hd hb h
  have hx : exec .awaitBusy { s with requests := rest } = .next
      (runOps .awaitBusy [.awaitBusy, .finish .idle] { s with requests := rest, panel := .busy }) :=
    (RunsLines.awaitBusy (s := { s with requests := rest }) idle sound).exec
  obtain ⟨t, hrun, hfin, htr, hdev, hreq, -⟩ := run_awaitBusy_polls k ((step_offered hs hr hd).trans hx) hb h
  exact ⟨t, hrun, hfin, htr, hreq, hdev⟩

/-! ## The timed wait and its deadline (R173, R175) -/

/-- Settles O34: the first poll's deadline, the High read of O51, and the comparison at a later Low read. -/
theorem timedWaitFollowsItsDeadline : Obligations.TimedWaitFollowsItsDeadline := by
  refine ⟨fun s tmo more levels x draws idle sound hb hc h => ?_, fun s more levels hs hb h => ?_,
    fun s more levels x t0 draws hs hbusy hb hc hn h => ?_⟩
  · obtain ⟨u, pl, hp, -, hnow⟩ := poll_low_readClock (s := { startClock s with panel := .busy }) h hb hc
    have hx : clockFloor (startClock s).platform + x = x := Nat.zero_add x
    refine ⟨_, (RunsLines.awaitBusyT tmo idle sound).exec, ?_⟩
    rw [awaitBusyTLines, runOps_enter, runOps_awaitTimed_of_low hp, hnow, hx]
    exact ⟨⟨rfl, rfl, rfl, rfl, rfl⟩, (List.append_assoc ..).symm, rfl⟩
  · obtain ⟨t, ht, hfin, htr, -⟩ := waitingRequestEndsAtHighRead .awaitBusyT s more levels (by decide) hs hb h
    exact ⟨t, ht, hfin, by rw [htr]; exact List.append_nil _⟩
  · obtain ⟨u, pl, hp, hd, hnow⟩ := poll_low_readClock (s := sleepFor 50 s) h hb hc
    have hx : clockFloor (sleepFor 50 s).platform + x = t0 + (s.platform.slept + 50) + x := by simp [clockFloor, hn]
    refine ⟨_, step_waiting hs, ?_⟩
    rw [waitingLines, runOps_sleep, runOps_pollTimed_of_low hp, hnow, hx, hd, sleepFor_deadline]
    by_cases hlt : s.deadline < t0 + (s.platform.slept + 50) + x
    · simp only [if_pos hlt]
      exact ⟨rfl, by simp [raiseError, reached], rfl, rfl, rfl, rfl, rfl⟩
    · simp only [if_neg hlt]
      exact ⟨rfl, by simp [reached], rfl, congrArg some hbusy, rfl, rfl, rfl⟩

/-! ## The timed wait ends (R125) -/

theorem clockFloor_nextSpi (s : State) : clockFloor (nextSpi s).2.platform = clockFloor s.platform := by
  unfold nextSpi; split <;> rfl

theorem clockFloor_readBusy (s : State) : clockFloor (readBusy s).2.platform = clockFloor s.platform := by
  rw [readBusy, emit_platform]; unfold nextBusy; split <;> rfl

/-- A busy query neither reads the clock nor sleeps. -/
theorem clockFloor_of_poll {s u : State} {l : Level} (h : poll s = .answered l u) :
    clockFloor u.platform = clockFloor s.platform := by
  rcases spiWrite_cases [(0x71 : Byte)] (setPin .dc .low s) with ⟨-, hw⟩ | ⟨-, hw⟩
  · simp only [poll, sendCmd, hw, PollResult.answered.injEq] at h
    obtain ⟨-, rfl⟩ := h
    rw [clockFloor_readBusy, emit_platform, clockFloor_nextSpi, setPin_platform]
  · simp only [poll, sendCmd, hw, reduceCtorEq] at h

/-- From `s` to `u` a timed wait came to a Low read with its clock read and its deadline not yet past. -/
structure TimedWaiting (s u : State) : Prop where
  waits     : waitsIn .awaitBusyT s u
  clockRead : ∃ t, u.platform.lastNow = some t
  notPast   : clockFloor u.platform ≤ u.deadline

/-- From `s` to `t` a timed wait is over. -/
def TimedEnd (s t : State) : Prop := finishedIn .idle s t ∨ timedOut s t ∨ faultedIn .busy s t

theorem TimedEnd.seq {s t : State} (h : TimedEnd s t) : t.seq = none := by
  rcases h with ⟨hs, -⟩ | ⟨hs, -⟩ | ⟨hs, -⟩ <;> exact hs

theorem seq_ne_none_of_waitsIn {k : RequestKind} {s t : State} (h : waitsIn k s t) : t.seq ≠ none := by
  obtain ⟨hs, -⟩ := h
  simp [hs]

/-- A timed wait that waits after its first poll has just read the clock its deadline is counted from. -/
theorem awaitTimed_waits {k : RequestKind} {p : PanelState} {d : Nat} {s t : State}
    (ht : t = runOps k [.awaitTimed d, .finish p] s) (h : t.seq ≠ none) :
    (∃ c, t.platform.lastNow = some c) ∧ t.deadline = clockFloor t.platform + d := by
  subst ht
  cases hp : poll s with
  | fault u => exact absurd (by simp [runOps, runOp, runAwaitTimed, hp, raiseError]) h
  | answered l u =>
    cases l with
    | high => exact absurd (by rw [runOps_awaitTimed_of_high hp]; rfl) h
    | low => rw [runOps_awaitTimed_of_low hp]; exact ⟨⟨_, rfl⟩, rfl⟩

/-- A timed wait that waits after a later poll has read a clock not past its deadline, which it keeps. -/
theorem pollTimed_waits {k : RequestKind} {p : PanelState} {s t : State}
    (ht : t = runOps k [.pollTimed, .finish p] s) (h : t.seq ≠ none) :
    (∃ c, t.platform.lastNow = some c) ∧ clockFloor t.platform ≤ t.deadline ∧ t.deadline = s.deadline ∧
      clockFloor s.platform ≤ clockFloor t.platform := by
  subst ht
  cases hp : poll s with
  | fault u => exact absurd (by simp [runOps, runOp, runPollTimed, hp, raiseError]) h
  | answered l u =>
    cases l with
    | high => exact absurd (by simp [runOps, runOp, runPollTimed, hp]) h
    | low =>
      have hd : u.deadline = s.deadline := by
        have hs := (portStep_poll s).deadline
        rwa [hp] at hs
      rw [runOps_pollTimed_of_low hp] at h ⊢
      by_cases hlt : u.deadline < (readClock u).1
      · rw [if_pos hlt] at h; exact absurd rfl h
      · rw [if_neg hlt]
        have hdl : (readClock u).2.deadline = u.deadline := readClock_deadline u
        refine ⟨⟨_, rfl⟩, ?_, hdl.trans hd, ?_⟩
        · exact (Nat.le_of_not_lt hlt).trans_eq hdl.symm
        · rw [← clockFloor_of_poll hp]; exact clockFloor_le_readClock u

/-- One step of a timed wait ends it, or the least value of its next clock read rises by the pause of 50 ms. -/
theorem TimedWaiting.step {s u : State} (h : TimedWaiting s u) :
    ∃ t, Machine.step u = .next t ∧ t.requests = u.requests ∧
      (TimedEnd s t ∨ (TimedWaiting s t ∧ t.deadline = u.deadline ∧
        clockFloor u.platform + 50 ≤ clockFloor t.platform)) := by
  obtain ⟨⟨hseq, hpan, hfau, hsta, hres⟩, ⟨c, hc⟩, -⟩ := h
  have response {t : State} {e : Status} (hr : t.responses = u.responses ++ [e]) :
      t.responses = s.responses ++ [e] := by rw [hr, hres]
  have hstep := step_waiting hseq
  refine ⟨_, hstep, (lineStep_runOps _ _ _).requests, ?_⟩
  rcases (comesTo_waitingLines hpan.symm).ends with ⟨hq, hp, hf, hst, hr⟩ | ⟨hq, hp, hf, hst, hr⟩ |
    ⟨p, hk, hq, hp, hf, hst, hr⟩ | ⟨-, hq, hp, hf, hst, hr⟩
  · exact .inl (.inl ⟨hq, hp, hf.trans hfau, hst, response hr⟩)
  · have hwaits : (runOps .awaitBusyT [.pollTimed, .finish .idle] (sleepFor 50 u)).seq ≠ none :=
      hq ▸ Option.some_ne_none _
    obtain ⟨hclock, hle, hdl, hfl⟩ := pollTimed_waits rfl hwaits
    have hpause : clockFloor (sleepFor 50 u).platform = clockFloor u.platform + 50 := clockFloor_after_sleeps hc [50]
    rw [hpause] at hfl
    exact .inr ⟨⟨⟨hq, hp, hf.trans hfau, hst.trans hsta, hr.trans hres⟩, hclock, hle⟩, hdl, hfl⟩
  · obtain rfl := Option.some.inj hk
    exact .inl (.inr (.inr ⟨hq, hp, hf, hst, response hr⟩))
  · exact .inl (.inr (.inl ⟨hq, hp, hf.trans hfau, hst, response hr⟩))

/-- A timed wait whose deadline is less than `n` pauses away ends within `n` steps. -/
theorem TimedWaiting.ends {s : State} (n : Nat) {u : State} (h : TimedWaiting s u)
    (hn : u.deadline < clockFloor u.platform + 50 * n) :
    ∃ m t, m ≤ n ∧ Sys2Proof.core.run m u = .next t ∧ t.requests = u.requests ∧ TimedEnd s t := by
  induction n generalizing u with
  | zero => exact absurd h.notPast (by omega)
  | succ n ih =>
    obtain ⟨v, hv, hreq, hend | ⟨hw, hdl, hfl⟩⟩ := h.step
    · exact ⟨1, v, by omega, run_succ hv 0, hreq, hend⟩
    · obtain ⟨m, t, hm, hrun, hreq', hend⟩ := ih hw (by omega)
      exact ⟨m + 1, t, by omega, (run_succ hv m).trans hrun, hreq'.trans hreq, hend⟩

/-- Settles O35: the request's own step ends it or sets a deadline TMO ms away, and each later one takes 50 ms off. -/
theorem timedWaitEndsWhateverThePlatformAnswers : Obligations.TimedWaitEndsWhateverThePlatformAnswers := by
  intro s r rest tmo idle sound hs hr hd
  suffices hm : ∃ m t, m ≤ tmo.toNat / 50 + 2 ∧ Sys2Proof.core.run m s = .next t ∧ t.requests = rest ∧
      TimedEnd s t by
    obtain ⟨m, t, hm, hrun, hreq, hend⟩ := hm
    exact ⟨m, t, hm, hrun, hend.seq, hreq, hend⟩
  obtain ⟨t, hx, ⟨-, hreq, -⟩, -, -, hends⟩ :=
    (awaitFinishesWaitsOrFaults { s with requests := rest } idle sound).2 tmo
  have hstep : step s = .next t := (step_offered hs hr hd).trans hx
  rcases hends with hfin | hwait | hfault
  · exact ⟨1, t, by omega, run_succ hstep 0, hreq, .inl hfin⟩
  · have ht := hx.symm.trans (RunsLines.awaitBusyT (s := { s with requests := rest }) tmo idle sound).exec
    obtain ⟨hclock, hdl⟩ := awaitTimed_waits (Host.Outcome.next.inj ht) (seq_ne_none_of_waitsIn hwait)
    have hw : TimedWaiting s t := ⟨hwait, hclock, by omega⟩
    have hlt : t.deadline < clockFloor t.platform + 50 * (tmo.toNat / 50 + 1) := by
      rw [hdl, timeoutMs]; omega
    obtain ⟨m, v, hm, hrun, hreq', hend⟩ := hw.ends (tmo.toNat / 50 + 1) hlt
    exact ⟨m + 1, v, by omega, (run_succ hstep m).trans hrun, hreq'.trans hreq, hend⟩
  · exact ⟨1, t, by omega, run_succ hstep 0, hreq, .inr (.inr hfault)⟩

end Sys2Proof.Machine
end

section
/-! PROOFS. The statements of 44_panel_commands.md: what a bus command sends by itself, and as a line of a request. -/

namespace Sys2Proof.Machine

/-! ## A bus command by itself (R185) -/

/-- A bus command whose frames the queued answers accept leaves just the state after its frames. -/
theorem runBusCommand_accepted {c : Byte} {p : List Byte} {s : State} {more : List SpiAnswer}
    (h : writesAccepted (frameEvents c p) s.platform.spi = some more) :
    runBusCommand c p s = afterWrites s (frameEvents c p) (dcAfter p) more := by
  obtain ⟨q, hsend, hq⟩ := sendCmdData_accepted (evs := []) (by simpa using h)
  obtain rfl : q = more := Option.some.inj hq
  rw [runBusCommand, hsend]

/-- Settles O14: each of the eighteen sends its own code and data, and does nothing after its frames. -/
theorem busCommandSendsItsFrames : Obligations.BusCommandSendsItsFrames := by
  intro i c p s more henc h
  rw [exec_of_encode henc, runBusCommand_accepted h, afterWrites]

/-! ## A bus command as a line of a request (R128) -/

/-- In request `k` a frame line and its bus command run alike: both go on from the state after the frames, or both end
`k` by the same fault, which adds its response. -/
theorem runOps_send_runBusCommand {k : RequestKind} {s : State} (hk : s.seq.map (fun pos => pos.request) = some k)
    (c : Byte) (p : List Byte) (rest : List SeqOp) :
    ((runBusCommand c p s).responses = s.responses ∧
      runOps k (.send c p :: rest) s = runOps k rest (runBusCommand c p s)) ∨
    ((runBusCommand c p s).responses = s.responses ++ [.transportFault] ∧
      runOps k (.send c p :: rest) s = runBusCommand c p s) := by
  have hport := portStep_sendCmdData c p s
  cases hsend : sendCmdData c p s with
  | ok t =>
    rw [hsend] at hport
    have hbus : runBusCommand c p s = t := by rw [runBusCommand, hsend]
    rw [hbus]
    exact .inl ⟨hport.responses, by simp only [runOps, runOp, runSend, hsend]⟩
  | fault t =>
    rw [hsend] at hport
    have hseq : t.seq = s.seq := hport.seq
    have hbus : runBusCommand c p s = raiseError (some k) .transportFault t := by
      simp only [runBusCommand, hsend, hseq, hk]
    rw [hbus]
    exact .inr ⟨congrArg (· ++ [Status.transportFault]) hport.responses,
      by simp only [runOps, runOp, runSend, hsend]⟩

/-- Settles O15: the decoded command is the sending of the line's code and data, in the request the sequencer is in. -/
theorem scriptLinesRunTheirBusCommand : Obligations.ScriptLinesRunTheirBusCommand := by
  intro k c p i rest s pos hdec hseq hk
  exact ⟨_, exec_of_decodeCommand hdec s, runOps_send_runBusCommand (by rw [hseq, ← hk]; rfl) c p rest⟩

end Sys2Proof.Machine
end

section
/-! PROOFS. The statements of 60_exceptions.md: what each error is reported for, and how a failed write ends its
request. -/

namespace Sys2Proof.Machine

/-- Settles O8: whatever an instruction comes to is a next state. -/
theorem everyInstructionGoesOn : Obligations.EveryInstructionGoesOn := by
  intro i s
  obtain ⟨t, ht, -⟩ := exec_result i s
  exact ⟨t, ht⟩

/-! ## An image of another size (R224) -/

theorem packImage_missized {img : Image} (m : Memory) (h : ¬(img.w = 128 ∧ img.h = 80)) : packImage img m = none := by
  rcases packImage_cases img m with hn | ⟨hw, hh, -⟩
  · exact hn
  · exact absurd ⟨hw, hh⟩ h

theorem exec_pack_missized {img : Image} (s : State) (h : ¬(img.w = 128 ∧ img.h = 80)) :
    exec (.pack img) s = .next (refusedWith .sizeMismatch s) := by
  simp only [exec, execPack, prologue_pack, packImage_missized s.devbuf h]
  rfl

theorem exec_display_missized {img : Image} {s : State} (h : ¬(img.w = 128 ∧ img.h = 80)) (hi : s.panel = .idle)
    (hf : s.fault.f = false) : exec (.display img) s = .next (refusedWith .sizeMismatch s) := by
  have hp : prologue .display s = none := by simp [prologue, hi, hf]
  simp only [exec, execDisplay, hp, packImage_missized s.devbuf h]
  rfl

/-- Settles O11: PACK has no guard, and past DISPLAY's the size is checked before anything else is done. -/
theorem wrongSizeImageRefused : Obligations.WrongSizeImageRefused :=
  fun s _ h => ⟨exec_pack_missized s h, exec_display_missized h⟩

/-! ## Writes that fail, and writes that do not (R222) -/

/-- From `s` to `t` no write failed and no transport fault was reported. -/
structure Unfailing (s t : State) : Prop where
  trace     : ∃ evs, t.trace = s.trace ++ evs ∧ evs.any failedWrite = false
  responses : ∃ es, t.responses = s.responses ++ es ∧ Status.transportFault ∉ es

/-- From `s` to `t` one write failed, and it is the last event. -/
def FailsAtLast (s t : State) : Prop :=
  ∃ earlier b n, t.trace = s.trace ++ earlier ++ [.spiWrite b (.err n)] ∧ earlier.any failedWrite = false

theorem Unfailing.of_fields {s t : State} (ht : t.trace = s.trace) (hr : t.responses = s.responses) :
    Unfailing s t :=
  ⟨⟨[], by simp [ht], rfl⟩, [], by simp [hr], by simp⟩

theorem Unfailing.refl (s : State) : Unfailing s s := .of_fields rfl rfl

theorem Unfailing.of_event {s t : State} {e : PortEvent} (ht : t.trace = s.trace ++ [e]) (he : failedWrite e = false)
    (hr : t.responses = s.responses) : Unfailing s t :=
  ⟨⟨[e], ht, by simp [he]⟩, [], by simp [hr], by simp⟩

/-- A request that ends by another error than a transport fault ends in no failed write. -/
theorem Unfailing.of_response {s t : State} {e : Status} (ht : t.trace = s.trace)
    (hr : t.responses = s.responses ++ [e]) (he : e ≠ .transportFault) : Unfailing s t :=
  ⟨⟨[], by simp [ht], rfl⟩, [e], hr, by simpa using he.symm⟩

theorem Unfailing.trans {s t u : State} (h : Unfailing s t) (g : Unfailing t u) : Unfailing s u := by
  obtain ⟨⟨xs, hx, fx⟩, es, he, ne⟩ := h
  obtain ⟨⟨ys, hy, fy⟩, es', he', ne'⟩ := g
  exact ⟨⟨xs ++ ys, by rw [hy, hx, List.append_assoc], by rw [List.any_append, fx, fy]; rfl⟩,
    es ++ es', by rw [he', he, List.append_assoc], by simp [ne, ne']⟩

theorem Unfailing.failsAtLast {s t u : State} (h : Unfailing s t) (g : FailsAtLast t u) : FailsAtLast s u := by
  obtain ⟨xs, hx, fx⟩ := h.trace
  obtain ⟨ys, b, n, hy, fy⟩ := g
  exact ⟨xs ++ ys, b, n, by rw [hy, hx, ← List.append_assoc s.trace], by rw [List.any_append, fx, fy]; rfl⟩

theorem Unfailing.not_failed {s t : State} {evs : List PortEvent} (h : Unfailing s t)
    (ht : t.trace = s.trace ++ evs) : evs.any failedWrite = false := by
  obtain ⟨xs, hx, fx⟩ := h.trace
  rwa [List.append_cancel_left (ht.symm.trans hx)]

theorem Unfailing.not_reported {s t : State} (h : Unfailing s t) :
    t.responses ≠ s.responses ++ [.transportFault] := by
  intro hr
  obtain ⟨es, he, ne⟩ := h.responses
  rw [← List.append_cancel_left (hr.symm.trans he)] at ne
  exact ne List.mem_cons_self

/-! ## Port operations, lines and requests -/

/-- A write's result is a fault just when its last event failed. -/
def PortResult.FailsOnlyAtLast (s : State) : PortResult → Prop
  | .ok t => Unfailing s t
  | .fault t => FailsAtLast s t

/-- A busy query's result is a fault just when its last event failed. -/
def PollResult.FailsOnlyAtLast (s : State) : PollResult → Prop
  | .answered _ t => Unfailing s t
  | .fault t => FailsAtLast s t

/-- A line raises a transport fault just when its last event failed, and no other error but a timeout. -/
def OpResult.FailsOnlyAtLast (s : State) : OpResult → Prop
  | .done t => Unfailing s t
  | .wait _ t => Unfailing s t
  | .raise e t => (e = .transportFault ∧ FailsAtLast s t) ∨ (e = .busyTimeout ∧ Unfailing s t)

theorem failsOnlyAtLast_frame (l : Level) (bytes : List Byte) (s : State) :
    (spiWrite bytes (setPin .dc l s)).FailsOnlyAtLast s := by
  rcases spiWrite_cases bytes (setPin .dc l s) with ⟨-, h⟩ | ⟨-, h⟩ <;> rw [h]
  · exact ⟨⟨[.setPin .dc l, .spiWrite bytes .ok], by simp, rfl⟩, [], by simp, by simp⟩
  · obtain ⟨n, p, -, -, hs⟩ := spiFail_shape bytes (nextSpi (setPin .dc l s)).2
    exact ⟨[.setPin .dc l], bytes, n, by simp [hs], rfl⟩

theorem failsOnlyAtLast_sendCmdData (c : Byte) (p : List Byte) (s : State) :
    (sendCmdData c p s).FailsOnlyAtLast s := by
  have hcmd : (sendCmd c s).FailsOnlyAtLast s := failsOnlyAtLast_frame .low [c] s
  rw [sendCmdData]
  cases hc : sendCmd c s with
  | fault t => rw [hc] at hcmd; exact hcmd
  | ok t =>
    rw [hc] at hcmd
    cases p with
    | nil => exact hcmd
    | cons b rest =>
      have hdata : (sendData (b :: rest) t).FailsOnlyAtLast t := failsOnlyAtLast_frame .high (b :: rest) t
      simp only [PortResult.andThen]
      cases hd : sendData (b :: rest) t with
      | ok u => rw [hd] at hdata; exact Unfailing.trans hcmd hdata
      | fault u => rw [hd] at hdata; exact Unfailing.failsAtLast hcmd hdata

theorem unfailing_readClock (s : State) : Unfailing s (readClock s).2 :=
  .of_event (readClock_trace s) rfl (portStep_readClock s).responses

theorem failsOnlyAtLast_poll (s : State) : (poll s).FailsOnlyAtLast s := by
  have hcmd : (sendCmd 0x71 s).FailsOnlyAtLast s := failsOnlyAtLast_frame .low [0x71] s
  rw [poll]
  cases hc : sendCmd 0x71 s with
  | ok t => rw [hc] at hcmd; exact Unfailing.trans hcmd (.of_event (readBusy_trace t) rfl (by simp))
  | fault t => rw [hc] at hcmd; exact hcmd

theorem failsOnlyAtLast_runOp (op : SeqOp) (s : State) : (runOp op s).FailsOnlyAtLast s := by
  have hp := failsOnlyAtLast_poll s
  cases op with
  | enter p => exact Unfailing.of_fields rfl rfl
  | setPin p l => exact Unfailing.of_event (setPin_trace p l s) rfl rfl
  | sleep ms => exact Unfailing.of_event (sleepFor_trace ms s) rfl rfl
  | finish p => exact Unfailing.of_response (e := .ok) rfl rfl (by decide)
  | send c p =>
    have h := failsOnlyAtLast_sendCmdData c p s
    simp only [runOp, runSend]
    cases hc : sendCmdData c p s with
    | ok t => rw [hc] at h; exact h
    | fault t => rw [hc] at h; exact .inl ⟨rfl, h⟩
  | awaitBusy =>
    simp only [runOp, runAwaitBusy]
    cases hc : poll s with
    | fault t => rw [hc] at hp; exact .inl ⟨rfl, hp⟩
    | answered l t => rw [hc] at hp; cases l <;> exact hp
  | awaitTimed d =>
    simp only [runOp, runAwaitTimed]
    cases hc : poll s with
    | fault t => rw [hc] at hp; exact .inl ⟨rfl, hp⟩
    | answered l t =>
      rw [hc] at hp
      cases l with
      | high => exact hp
      | low => exact (Unfailing.trans hp (unfailing_readClock t)).trans (.of_fields rfl rfl)
  | pollTimed =>
    simp only [runOp, runPollTimed]
    cases hc : poll s with
    | fault t => rw [hc] at hp; exact .inl ⟨rfl, hp⟩
    | answered l t =>
      rw [hc] at hp
      have hlow := Unfailing.trans hp (unfailing_readClock t)
      cases l with
      | high => exact hp
      | low =>
        simp only
        split
        · exact .inr ⟨rfl, hlow⟩
        · exact hlow

/-- Lines run without a failed write, or up to one, which ends them by a transport fault. -/
theorem runOps_fails (k : RequestKind) (ops : List SeqOp) (s : State) :
    Unfailing s (runOps k ops s) ∨
    ∃ u, FailsAtLast s u ∧ runOps k ops s = raiseError (some k) .transportFault u := by
  induction ops generalizing s with
  | nil => exact .inl (.of_fields rfl rfl)
  | cons op rest ih =>
    have h := failsOnlyAtLast_runOp op s
    simp only [runOps]
    cases hr : runOp op s with
    | done t =>
      rw [hr] at h
      rcases ih t with hi | ⟨u, hu, he⟩
      · exact .inl (Unfailing.trans h hi)
      · exact .inr ⟨u, Unfailing.failsAtLast h hu, he⟩
    | wait again t => rw [hr] at h; exact .inl (Unfailing.trans h (.of_fields rfl rfl))
    | raise e t =>
      rw [hr] at h
      rcases h with ⟨rfl, hf⟩ | ⟨rfl, hu⟩
      · exact .inr ⟨t, hf, rfl⟩
      · exact .inl (hu.trans (.of_response rfl rfl (by decide)))

/-- From `s` to `t` no write failed, or one did, as the last event, and its fault ended the request. -/
def FaultsAtFailedWrite (s t : State) : Prop := Unfailing s t ∨ (FailsAtLast s t ∧ ∃ p, faultedIn p s t)

/-- Of the ends a request comes to, only a transport fault leaves that STATUS and no request running. -/
theorem ComesTo.faultedIn {k : RequestKind} {s t : State} (h : ComesTo k s t) (hseq : t.seq = none)
    (hst : t.status = .transportFault) : ∃ p, faultedIn p s t := by
  rcases h.ends with ⟨-, -, -, ho, -⟩ | ⟨hw, -⟩ | ⟨p, -, hf⟩ | ⟨-, -, -, -, hb, -⟩
  · exact absurd (ho.symm.trans hst) (by decide)
  · exact absurd (hw.symm.trans hseq) (by simp)
  · exact ⟨p, hf⟩
  · exact absurd (hb.symm.trans hst) (by decide)

theorem ComesTo.faultsAtFailedWrite {k : RequestKind} {ops : List SeqOp} {s s₀ : State}
    (h : ComesTo k s (runOps k ops s₀)) (ht : s₀.trace = s.trace) (hr : s₀.responses = s.responses) :
    FaultsAtFailedWrite s (runOps k ops s₀) := by
  have hstart : Unfailing s s₀ := .of_fields ht hr
  rcases runOps_fails k ops s₀ with hu | ⟨u, hu, he⟩
  · exact .inl (hstart.trans hu)
  · rw [he] at h ⊢
    exact .inr ⟨hstart.failsAtLast hu, h.faultedIn rfl rfl⟩

theorem RunsLines.faultsAtFailedWrite {s s₀ : State} {i : Instr} {k : RequestKind} {lines : List SeqOp}
    (h : RunsLines s i k lines s₀) : FaultsAtFailedWrite s (runOps k lines s₀) := by
  obtain ⟨p, hs⟩ := h.start
  exact h.comesTo.faultsAtFailedWrite h.trace (by rw [hs])

/-! ## What a host request comes to, with the reason for its error (R221, R224 to R228) -/

/-- Host request `i` in `s`: its guard refuses it, or its image's size; the acquisition is denied or the session opened;
the image is packed; or its lines run. -/
inductive RequestResult (s : State) : Instr → State → Prop
  | guarded {i : Instr} {k : RequestKind} {e : Status} (kind : requestKind i = some k)
      (guard : prologue k s = some e) : RequestResult s i (refusedWith e s)
  | missized {i : Instr} (img : Image) (takes : i = .pack img ∨ i = .display img)
      (size : ¬(img.w = 128 ∧ img.h = 80)) : RequestResult s i (refusedWith .sizeMismatch s)
  | denied (absent : s.panel = .absent) (answer : (nextAcquire s).1 = .refused) :
      RequestResult s .new (refusedWith .acquisitionFailure (nextAcquire s).2)
  | opened (levels : Latches) :
      RequestResult s .new (writeStatus .ok (clearFault { (nextAcquire s).2 with latches := levels, panel := .off }))
  | packed (img : Image) (m : Memory) : RequestResult s (.pack img) (writeStatus .ok { s with devbuf := m })
  | ran {i : Instr} {k : RequestKind} {lines : List SeqOp} {s₀ : State} (lines_run : RunsLines s i k lines s₀) :
      RequestResult s i (runOps k lines s₀)

theorem requestKind_of_decodeRequest {r : HostRequest} {i : Instr} (h : decodeRequest r = some i) :
    ∃ k, requestKind i = some k := by
  unfold decodeRequest at h
  split at h <;> cases h <;> exact ⟨_, rfl⟩

theorem requestResult_openSession {s : State} (h : s.panel = .absent) : RequestResult s .new (openSession s) := by
  unfold openSession
  cases ha : (nextAcquire s).1 with
  | refused => exact .denied h ha
  | granted levels => exact .opened levels

/-- Past its guard a host request does what its own meaning says. -/
theorem exec_requestResult {i : Instr} {k : RequestKind} {s : State} (hk : requestKind i = some k) :
    ∃ t, exec i s = .next t ∧ RequestResult s i t := by
  cases hp : prologue k s with
  | some e => exact ⟨_, exec_refused hk hp, .guarded hk hp⟩
  | none =>
    have ran {lines : List SeqOp} {s₀ : State} (hl : RunsLines s i k lines s₀) :
        ∃ t, exec i s = .next t ∧ RequestResult s i t := ⟨_, hl.exec, .ran hl⟩
    have idle (hb : waitingState k = some .busy) : s.panel = .idle ∧ s.fault.f = false := idle_of_prologue_busy hb hp
    cases i with
    | new =>
      cases hk
      have ha := absent_of_prologue_new hp
      exact ⟨_, exec_new_absent ha, requestResult_openSession ha⟩
    | on =>
      cases hk
      obtain ⟨ho, hf⟩ := off_of_prologue_on hp
      exact ran (.on ho hf)
    | display img =>
      cases hk
      obtain ⟨hi, hf⟩ := idle rfl
      by_cases hs : img.w = 128 ∧ img.h = 80
      · obtain ⟨hw, hh⟩ := hs
        exact ran (.display img hw hh hi hf)
      · exact ⟨_, exec_display_missized hs hi hf, .missized img (.inr rfl) hs⟩
    | clear =>
      cases hk
      obtain ⟨hi, hf⟩ := idle rfl
      exact ran (.clear hi hf)
    | release => cases hk; exact ran (.release (held_of_prologue_release hp))
    | awaitBusy =>
      cases hk
      obtain ⟨hi, hf⟩ := idle rfl
      exact ran (.awaitBusy hi hf)
    | awaitBusyT tmo =>
      cases hk
      obtain ⟨hi, hf⟩ := idle rfl
      exact ran (.awaitBusyT tmo hi hf)
    | pack img =>
      by_cases hs : img.w = 128 ∧ img.h = 80
      · obtain ⟨hw, hh⟩ := hs
        exact ⟨_, exec_pack_sized s hw hh, .packed img _⟩
      · exact ⟨_, exec_pack_missized s hs, .missized img (.inl rfl) hs⟩
    | _ => cases hk

theorem requestResult_of_offered {r : HostRequest} {i : Instr} {s t : State} (hd : decodeRequest r = some i)
    (h : exec i s = .next t) : RequestResult s i t := by
  obtain ⟨k, hk⟩ := requestKind_of_decodeRequest hd
  obtain ⟨u, hu, hr⟩ := exec_requestResult (s := s) hk
  rw [hu] at h
  cases h
  exact hr

/-- `step_legal` with the request at the head of the host port and the reason for its error. -/
theorem step_legal_result {s t : State} (hl : sessionLegal s = true) (h : step s = .next t) :
    t = s ∨
    (∃ r more, s.seq = none ∧ s.requests = r :: more ∧ decodeRequest r = none ∧
      t = refusedWith .invalidRequest { s with requests := more }) ∨
    (∃ r more i, s.seq = none ∧ s.requests = r :: more ∧ decodeRequest r = some i ∧
      RequestResult { s with requests := more } i t) ∨
    (∃ k, s.seq = some { request := k, rest := waitingLines k } ∧ waitingState k = some s.panel ∧
      t = runOps k (waitingLines k) s) := by
  rcases step_cases s with ⟨-, -, g⟩ | ⟨r, more, hs, hr, hd, g⟩ | ⟨r, more, i, hs, hr, hd, g⟩ |
    ⟨pos, c, p, rest, hs, hsend, -⟩ | ⟨⟨k, rest⟩, hs, g⟩
  · rw [g] at h; cases h; exact .inl rfl
  · rw [g] at h; cases h; exact .inr (.inl ⟨r, more, hs, hr, hd, rfl⟩)
  · rw [g] at h; exact .inr (.inr (.inl ⟨r, more, i, hs, hr, hd, requestResult_of_offered hd h⟩))
  · obtain ⟨-, hrest, -⟩ := waiting_of_sessionLegal hs hl
    exact absurd (hrest.symm.trans hsend) (waitingLines_ne_send _ _ _ _)
  · obtain ⟨hw, hrest, -⟩ := waiting_of_sessionLegal hs hl
    obtain rfl : rest = waitingLines k := hrest
    rw [g] at h; cases h; exact .inr (.inr (.inr ⟨k, hs, hw, rfl⟩))

/-! ## A failed write ends its request (R222, R229) -/

theorem RequestResult.faultsAtFailedWrite {i : Instr} {s t : State} (h : RequestResult s i t) :
    FaultsAtFailedWrite s t := by
  cases h with
  | guarded kind guard =>
    refine .inl (.of_response rfl rfl ?_)
    rcases prologue_error guard with rfl | rfl <;> decide
  | missized => exact .inl (.of_response (e := .sizeMismatch) rfl rfl (by decide))
  | denied =>
    exact .inl (.of_response (e := .acquisitionFailure) (by simp [refusedWith]) (by simp [refusedWith]) (by decide))
  | opened => exact .inl (.of_response (e := .ok) (by simp) (by simp) (by decide))
  | packed => exact .inl (.of_response (e := .ok) rfl rfl (by decide))
  | ran hl => exact hl.faultsAtFailedWrite

theorem faultsAtFailedWrite_of_step {s t : State} (hl : sessionLegal s = true) (h : step s = .next t) :
    FaultsAtFailedWrite s t := by
  rcases step_legal_result hl h with rfl | ⟨r, more, -, -, -, rfl⟩ | ⟨r, more, i, -, -, -, hr⟩ | ⟨k, -, hw, rfl⟩
  · exact .inl (.refl _)
  · exact .inl (.of_response (e := .invalidRequest) rfl rfl (by decide))
  · exact hr.faultsAtFailedWrite.imp_left fun hu => ⟨hu.trace, hu.responses⟩
  · exact (comesTo_waitingLines hw).faultsAtFailedWrite rfl rfl

/-- Settles O49: a step either adds no failed write or ends with one that has ended its request. -/
theorem transportFaultEndsRequestAtOnce : Obligations.TransportFaultEndsRequestAtOnce := by
  intro s t evs hl h ht hfail
  rcases faultsAtFailedWrite_of_step hl h with hu | ⟨⟨earlier, b, n, hlast, hno⟩, p, hseq, -, hf, hst, hr⟩
  · rw [hu.not_failed ht] at hfail
    cases hfail
  · rw [ht, List.append_assoc] at hlast
    exact ⟨earlier, b, n, List.append_cancel_left hlast, hno, hseq, hf, hst, hr⟩

/-! ## What each guard refuses (R225, R227) -/

/-- The guards that refuse with INVALID_STATE, in the order of the prologue. -/
theorem kind_of_prologue_invalidState {k : RequestKind} {s : State} (h : prologue k s = some .invalidState) :
    (k = .new ∧ s.panel ≠ .absent) ∨
    (k ≠ .new ∧ k ≠ .pack ∧ s.panel = .absent) ∨
    (k = .on ∧ s.panel ≠ .off ∧ s.fault.f = false) ∨
    (waitingState k = some .busy ∧ s.panel ≠ .idle ∧ s.fault.f = false) := by
  unfold prologue at h
  split_ifs at h with hpack hnew hheld habs hfault hon hbusy
  · exact .inl ⟨hnew, hheld⟩
  · exact .inr (.inl ⟨hnew, hpack, habs⟩)
  · cases h
  · obtain ⟨rfl, ho⟩ := hon
    exact .inr (.inr (.inl ⟨rfl, ho, by simpa using hfault⟩))
  · obtain ⟨hk, hi⟩ := hbusy
    exact .inr (.inr (.inr ⟨by rcases hk with rfl | rfl | rfl | rfl <;> rfl, hi,
      by rcases hk with rfl | rfl | rfl | rfl <;> simpa using hfault⟩))

theorem kind_of_prologue_faulted {k : RequestKind} {s : State} (h : prologue k s = some .faulted) :
    s.fault.f = true ∧ s.panel ≠ .absent ∧ k ≠ .new ∧ k ≠ .release ∧ k ≠ .pack := by
  unfold prologue at h
  split_ifs at h with hpack hnew hheld habs hfault hon hbusy
  · cases h
  · cases h
  · obtain ⟨hf, hrel⟩ := hfault
    exact ⟨hf, habs, hnew, hrel, hpack⟩
  · cases h
  · cases h

theorem instr_of_kind_new {i : Instr} (h : requestKind i = some .new) : i = .new := by
  cases i <;> cases h
  rfl

theorem instr_of_kind_on {i : Instr} (h : requestKind i = some .on) : i = .on := by
  cases i <;> cases h
  rfl

/-- The requests that wait in Busy. -/
theorem instr_of_kind_busy {i : Instr} {k : RequestKind} (hk : requestKind i = some k)
    (hw : waitingState k = some .busy) :
    i = .clear ∨ i = .awaitBusy ∨ (∃ img, i = .display img) ∨ ∃ tmo, i = .awaitBusyT tmo := by
  cases i <;> cases hk <;> cases hw <;> simp

/-- An instruction of another kind is another instruction. -/
theorem instr_ne_of_kind_ne {i j : Instr} {k l : RequestKind} (hk : requestKind i = some k)
    (hl : requestKind j = some l) (h : k ≠ l) : i ≠ j := by
  rintro rfl
  exact h (Option.some.inj (hk.symm.trans hl))

theorem instr_of_prologue_invalidState {i : Instr} {k : RequestKind} {s : State} (hk : requestKind i = some k)
    (h : prologue k s = some .invalidState) :
    (i = .new ∧ s.panel ≠ .absent) ∨
    (i ≠ .new ∧ (∀ img, i ≠ .pack img) ∧ s.panel = .absent) ∨
    (i = .on ∧ s.panel ≠ .off ∧ s.fault.f = false) ∨
    ((i = .clear ∨ i = .awaitBusy ∨ (∃ img, i = .display img) ∨ ∃ tmo, i = .awaitBusyT tmo) ∧
      s.panel ≠ .idle ∧ s.fault.f = false) := by
  rcases kind_of_prologue_invalidState h with ⟨rfl, hp⟩ | ⟨hnew, hpack, hp⟩ | ⟨rfl, hp⟩ | ⟨hw, hp⟩
  · exact .inl ⟨instr_of_kind_new hk, hp⟩
  · exact .inr (.inl ⟨instr_ne_of_kind_ne hk rfl hnew, fun _ => instr_ne_of_kind_ne hk rfl hpack, hp⟩)
  · exact .inr (.inr (.inl ⟨instr_of_kind_on hk, hp⟩))
  · exact .inr (.inr (.inr ⟨instr_of_kind_busy hk hw, hp⟩))

theorem instr_of_prologue_faulted {i : Instr} {k : RequestKind} {s : State} (hk : requestKind i = some k)
    (h : prologue k s = some .faulted) :
    s.fault.f = true ∧ s.panel ≠ .absent ∧ i ≠ .new ∧ i ≠ .release ∧ ∀ img, i ≠ .pack img := by
  obtain ⟨hf, hp, hnew, hrel, hpack⟩ := kind_of_prologue_faulted h
  exact ⟨hf, hp, instr_ne_of_kind_ne hk rfl hnew, instr_ne_of_kind_ne hk rfl hrel,
    fun _ => instr_ne_of_kind_ne hk rfl hpack⟩

/-! ## Which errors are reported -/

/-- The answer to an acquisition does not depend on the host port. -/
theorem nextAcquire_requests_fst (s : State) (rs : List HostRequest) :
    (nextAcquire { s with requests := rs }).1 = (nextAcquire s).1 := by
  simp only [nextAcquire]
  split <;> rfl

/-- A request's first step cannot run out of time: the timed wait's deadline is set in it. -/
theorem RunsLines.finishesWaitsOrFaults {s s₀ : State} {i : Instr} {k : RequestKind} {lines : List SeqOp}
    (h : RunsLines s i k lines s₀) :
    finishedIn (endState k) s (runOps k lines s₀) ∨ waitsIn k s (runOps k lines s₀) ∨
    ∃ p, faultedIn p s (runOps k lines s₀) := by
  rcases h.comesTo.ends with he | he | ⟨p, -, he⟩ | ⟨rfl, -⟩
  · exact .inl he
  · exact .inr (.inl he)
  · exact .inr (.inr ⟨p, he⟩)
  · have hx := h.exec
    cases h with
    | awaitBusyT tmo idle sound =>
      obtain ⟨t, ht, -, -, -, he⟩ := (awaitFinishesWaitsOrFaults s idle sound).2 tmo
      obtain rfl := Host.Outcome.next.inj (ht.symm.trans hx)
      exact he.imp_right (Or.imp_right fun hf => ⟨_, hf⟩)

theorem response_eq {s t : State} {e e' : Status} (h : t.responses = s.responses ++ [e])
    (h' : t.responses = s.responses ++ [e']) : e = e' :=
  List.singleton_inj.1 (List.append_cancel_left (h.symm.trans h'))

theorem no_response {s t : State} {e : Status} (h : t.responses = s.responses) :
    t.responses ≠ s.responses ++ [e] := by
  simp [h]

/-- The lines a request's own step runs report OK or a transport fault. -/
theorem RunsLines.reports {s s₀ : State} {i : Instr} {k : RequestKind} {lines : List SeqOp} {e : Status}
    (h : RunsLines s i k lines s₀) (hr : (runOps k lines s₀).responses = s.responses ++ [e]) :
    e = .ok ∨ e = .transportFault := by
  rcases h.finishesWaitsOrFaults with ⟨-, -, -, -, ho⟩ | ⟨-, -, -, -, hn⟩ | ⟨p, -, -, -, -, hf⟩
  · exact .inl (response_eq hr ho)
  · exact absurd hr (no_response hn)
  · exact .inr (response_eq hr hf)

/-- A resumed request reports OK or a transport fault, or is a timed wait that has run out. -/
theorem waitingLines_reports {k : RequestKind} {s : State} {e : Status} (hw : waitingState k = some s.panel)
    (hr : (runOps k (waitingLines k) s).responses = s.responses ++ [e]) :
    e = .ok ∨ e = .transportFault ∨
    (e = .busyTimeout ∧ k = .awaitBusyT ∧ timedOut s (runOps k (waitingLines k) s)) := by
  rcases (comesTo_waitingLines hw).ends with ⟨-, -, -, -, ho⟩ | ⟨-, -, -, -, hn⟩ | ⟨p, -, -, -, -, -, hf⟩ | ⟨hk, ht⟩
  · exact .inl (response_eq hr ho)
  · exact absurd hr (no_response hn)
  · exact .inr (.inl (response_eq hr hf))
  · obtain ⟨-, -, -, -, hb⟩ := id ht
    exact .inr (.inr ⟨response_eq hr hb, hk, ht⟩)

/-- A transport fault is reported only with a failed write as the last event. -/
theorem FaultsAtFailedWrite.last {s t : State} (h : FaultsAtFailedWrite s t)
    (hr : t.responses = s.responses ++ [.transportFault]) :
    ∃ evs b n, t.trace = s.trace ++ evs ++ [.spiWrite b (.err n)] := by
  rcases h with hu | ⟨⟨evs, b, n, ht, -⟩, -⟩
  · exact absurd hr hu.not_reported
  · exact ⟨evs, b, n, ht⟩

/-- Settles O50: a step reports by one of its ends alone, and for that status only its own clause has anything to
say. -/
theorem errorsComeOnlyFromTheirRequests : Obligations.ErrorsComeOnlyFromTheirRequests := by
  intro s t e hl h hr
  by_cases hok : e = .ok
  · subst hok; exact ⟨nofun, nofun, nofun, nofun, nofun, nofun, nofun⟩
  by_cases hfault : e = .transportFault
  · subst hfault
    exact ⟨nofun, fun _ => (faultsAtFailedWrite_of_step hl h).last hr, nofun, nofun, nofun, nofun, nofun⟩
  rcases step_legal_result hl h with rfl | ⟨r, more, hs, hq, hd, rfl⟩ | ⟨r, more, i, hs, hq, hd, hres⟩ |
    ⟨k, hs, hw, rfl⟩
  · exact absurd hr (no_response rfl)
  · obtain rfl : Status.invalidRequest = e := response_eq (s := s) rfl hr
    exact ⟨nofun, nofun, nofun, nofun, nofun, fun _ => ⟨r, more, hs, hq, hd, rfl⟩, nofun⟩
  · cases hres with
    | @guarded _ k e' kind guard =>
      obtain rfl : e' = e := response_eq (s := s) rfl hr
      rcases prologue_error guard with rfl | rfl
      · exact ⟨nofun, nofun, nofun, nofun,
          fun _ => ⟨r, more, i, hs, hq, hd, rfl, instr_of_prologue_invalidState kind guard⟩, nofun, nofun⟩
      · exact ⟨nofun, nofun, nofun, nofun, nofun, nofun,
          fun _ => ⟨r, more, i, hs, hq, hd, rfl, instr_of_prologue_faulted kind guard⟩⟩
    | missized img takes size =>
      obtain rfl : Status.sizeMismatch = e := response_eq (s := s) rfl hr
      have hdec : decodeRequest r = some (.pack img) ∨ decodeRequest r = some (.display img) := by
        rw [hd]; exact takes.imp (congrArg some) (congrArg some)
      exact ⟨nofun, nofun, nofun, fun _ => ⟨r, more, img, hs, hq, hdec, size, rfl, rfl, rfl, rfl⟩, nofun, nofun, nofun⟩
    | denied absent answer =>
      obtain rfl : Status.acquisitionFailure = e := response_eq (s := s) (by simp [refusedWith]) hr
      rw [nextAcquire_requests_fst] at answer
      exact ⟨fun _ => ⟨r, more, hs, hq, hd, answer, (nextAcquire_panel _).trans absent, nextAcquire_trace _⟩,
        nofun, nofun, nofun, nofun, nofun, nofun⟩
    | opened => exact absurd (response_eq (s := s) hr (by simp)) hok
    | packed => exact absurd (response_eq (s := s) hr rfl) hok
    | ran hrun => exact absurd (hrun.reports hr) (not_or_intro hok hfault)
  · obtain ⟨rfl, rfl, -, hp, hf, -⟩ := ((waitingLines_reports hw hr).resolve_left hok).resolve_left hfault
    exact ⟨nofun, nofun, fun _ => ⟨hs, hp, hf⟩, nofun, nofun, nofun, nofun⟩

end Sys2Proof.Machine
end

section
/-! PROOFS. The statements of 70_reset_and_hazards.md: an unbounded wait that hangs while BUSY stays Low, and what a
waiting request sends. -/

namespace Sys2Proof.Machine

/-! ## An unbounded wait while BUSY stays Low (R257) -/

theorem waitsUnbounded_of_mem {k : RequestKind} (hk : k ∈ [RequestKind.on, .display, .clear, .release, .awaitBusy]) :
    WaitsUnbounded k :=
  (by decide : ∀ k ∈ [RequestKind.on, .display, .clear, .release, .awaitBusy],
    waitingLines k = .sleep tPoll :: .awaitBusy :: endLines k) k hk

/-- A Low read brings an unbounded wait back to the position it had before its pause. -/
theorem step_unbounded_low {k : RequestKind} {s : State} {evs : List PortEvent} {more : List SpiAnswer}
    {levels : List Level} (hk : WaitsUnbounded k) (hs : s.seq = some { request := k, rest := waitingLines k })
    (hb : s.platform.busy = .low :: levels)
    (h : writesAccepted ([.sleep 50] ++ pollEvents .low ++ evs) s.platform.spi = some more) :
    ∃ q, step s = .next (afterPoll (sleepFor 50 s) .low q levels) ∧ writesAccepted evs q = some more := by
  obtain ⟨q, hq, hmore⟩ :=
    runOps_awaitBusy_low (k := k) (rest := endLines k) (evs := evs) (s := sleepFor 50 s) h hb
  refine ⟨q, (step_waiting hs).trans (congrArg _ ?_), hmore⟩
  rw [← hk, ← hs] at hq
  rw [hk]
  exact hq

/-- Settles O33, by induction on the number of Low reads: each is one step that leaves the wait where it was. -/
theorem unboundedWaitHangsWhileBusy : Obligations.UnboundedWaitHangsWhileBusy := by
  intro n k s more levels hk hs hb h
  induction n generalizing s with
  | zero => exact ⟨s, rfl, rfl, rfl, rfl, rfl, rfl, rfl, (List.append_nil _).symm⟩
  | succ n ih =>
    obtain ⟨q, hstep, hmore⟩ := step_unbounded_low (waitsUnbounded_of_mem hk) hs hb h
    obtain ⟨t, hrun, hseq, hst, hres, hreq, hpan, hfau, htr⟩ := ih (afterPoll (sleepFor 50 s) .low q _) hs rfl hmore
    refine ⟨t, (run_succ hstep n).trans hrun, hseq, hst, hres, hreq, hpan, hfau, ?_⟩
    rw [htr]
    simp [busyPolls]

/-! ## What a waiting request sends (R255, R264) -/

/-- A busy query is one write of 0x71 with DC Low; it fails, or the BUSY read follows it. -/
theorem poll_trace (s : State) :
    (∃ n u, poll s = .fault u ∧ u.trace = s.trace ++ [.setPin .dc .low, .spiWrite [0x71] (.err n)]) ∨
    ∃ l u, poll s = .answered l u ∧ u.trace = s.trace ++ [.setPin .dc .low, .spiWrite [0x71] .ok, .readBusy l] := by
  rcases spiWrite_cases [(0x71 : Byte)] (setPin .dc .low s) with ⟨-, hw⟩ | ⟨-, hw⟩ <;> rw [poll, sendCmd, hw]
  · exact .inr ⟨_, _, rfl, by simp [readBusy_trace]⟩
  · exact .inl ⟨(nextDelivered 1 (nextSpi (setPin .dc .low s)).2).1, _, rfl, by simp⟩

/-- The line that polls in the wait of request `k`. -/
def pollLine : RequestKind → SeqOp
  | .awaitBusyT => .pollTimed
  | _ => .awaitBusy

theorem waitingLines_eq {k : RequestKind} (hk : waitingState k ≠ none) :
    waitingLines k = .sleep 50 :: pollLine k :: endLines k := by
  cases k with
  | new => exact absurd rfl hk
  | pack => exact absurd rfl hk
  | _ => rfl

theorem pollLine_of_ne {k : RequestKind} (hk : k ≠ .awaitBusyT) : pollLine k = .awaitBusy := by
  cases k with
  | awaitBusyT => exact absurd rfl hk
  | _ => rfl

/-- A query whose write failed ends the request, whichever wait it is in. -/
theorem runOps_pollLine_of_fault {s u : State} (h : poll s = .fault u) (k : RequestKind) (rest : List SeqOp) :
    runOps k (pollLine k :: rest) s = raiseError (some k) .transportFault u := by
  by_cases hk : k = .awaitBusyT
  · subst hk; simp only [pollLine, runOps, runOp, runPollTimed, h]
  · simp only [pollLine_of_ne hk, runOps, runOp, runAwaitBusy, h]

/-- A High read goes on with the lines after the wait, whichever wait it is. -/
theorem runOps_pollLine_of_high {s u : State} (h : poll s = .answered .high u) (k : RequestKind)
    (rest : List SeqOp) : runOps k (pollLine k :: rest) s = runOps k rest u := by
  by_cases hk : k = .awaitBusyT
  · subst hk; simp only [pollLine, runOps, runOp, runPollTimed, h]
  · simp only [pollLine_of_ne hk, runOps, runOp, runAwaitBusy, h]

/-- After a Low read the timed wait reads the clock and nothing else, past its deadline or not. -/
theorem trace_pollTimed_of_low {s u : State} (h : poll s = .answered .low u) (k : RequestKind) (rest : List SeqOp) :
    (runOps k (.pollTimed :: rest) s).trace = u.trace ++ [.now (readClock u).1] := by
  rw [runOps_pollTimed_of_low h, ← readClock_trace]
  split <;> rfl

/-- After a Low read an unbounded wait does nothing but wait on. -/
theorem trace_awaitBusy_of_low {s u : State} (h : poll s = .answered .low u) (k : RequestKind) (rest : List SeqOp) :
    (runOps k (.awaitBusy :: rest) s).trace = u.trace := by
  simp only [runOps, runOp, runAwaitBusy, h]

/-- The lines after a wait end the request, from any state. -/
theorem endsAfter_endLines (k : RequestKind) (u : State) : EndsAfter k u (runOps k (endLines k) u) u.latches [] := by
  have h := endsAfter_afterRead k u u.panel u.latches [] u.platform
  rwa [afterRead, reached, List.append_nil] at h

theorem spiWrite_notMem_afterWaitEvents (k : RequestKind) (b : List Byte) (r : WriteResult) :
    PortEvent.spiWrite b r ∉ afterWaitEvents k := by
  cases k <;> simp [afterWaitEvents]

/-- Settles O37: the pause, then the query; the request goes on waiting only where the query was read Low. -/
theorem waitingRequestSendsOnlyQueries : Obligations.WaitingRequestSendsOnlyQueries := by
  intro k s t hk hs ht
  have hw : waitingState k ≠ none := (by decide : ∀ k ∈ [RequestKind.on, .display, .clear, .release, .awaitBusy,
    .awaitBusyT], waitingState k ≠ none) k hk
  obtain rfl := Host.Outcome.next.inj ((step_waiting hs).symm.trans ht)
  rw [waitingLines_eq hw, runOps_sleep]
  rcases poll_trace (sleepFor 50 s) with ⟨n, u, hp, htr⟩ | ⟨l, u, hp, htr⟩
  · rw [runOps_pollLine_of_fault hp]
    exact ⟨.err n, [], by simp [raiseError, htr], nofun, fun hseq => absurd rfl hseq⟩
  cases l with
  | high =>
    rw [runOps_pollLine_of_high hp]
    have he := endsAfter_endLines k u
    obtain ⟨hnone, -⟩ := he.finished
    exact ⟨.ok, .readBusy .high :: afterWaitEvents k, by simp [he.trace, htr],
      by simp [spiWrite_notMem_afterWaitEvents], fun hseq => absurd hnone hseq⟩
  | low =>
    by_cases hT : k = .awaitBusyT
    · subst hT
      exact ⟨.ok, [.readBusy .low, .now (readClock u).1], by simp [pollLine, trace_pollTimed_of_low hp, htr], by simp,
        fun _ => ⟨rfl, _, rfl⟩⟩
    · exact ⟨.ok, [.readBusy .low], by simp [pollLine_of_ne hT, trace_awaitBusy_of_low hp, htr], by simp,
        fun _ => ⟨rfl, by rw [if_neg hT]⟩⟩

end Sys2Proof.Machine
end
